-- ==== Sys2Proof/Word.lean ====
section
/-! DEFINITION. The widths the block's data and words have (spec/00_scope.md R8, spec/30_encoding.md R90, R99, R110). -/

namespace Sys2Proof

/-- A byte of the register file or of the bus (R21, R92 to R94); bit 0 is the least significant (R8). -/
abbrev Byte := BitVec 8

/-- A 7-bit device address of the bus (R91). -/
abbrev DeviceAddress := BitVec 7

/-- A heater level as CONTROL bits 5:0 hold it (R25). -/
abbrev Level := BitVec 6

/-- A register index that exists: 0 is STATUS, 1 is CONTROL (R21, R29). -/
abbrev RegIndex := BitVec 1

/-- The three heater relay bits of PATTERN, `h[0]` relay 1 (R160). -/
abbrev HeaterMask := BitVec 3

/-- The output mask: auxiliary B, auxiliary A, heater relay 3, 2, 1, from bit 4 down to bit 0 (R95, decision D5). -/
abbrev OutMask := BitVec 5

/-- An event word: kind in bits 11:8, payload in bits 7:0 (R99, decision D2). -/
abbrev EventWord := BitVec 12

/-- The argument word of PATTERN: level in bits 9:4, phase in bits 3:0 (R110, decision D33). -/
abbrev PatternWord := BitVec 10

/-- The argument word of OUTMASK: en, auxB, auxA in bits 12, 11, 10, then level and phase (R110, decision D33). -/
abbrev OutmaskWord := BitVec 13

end Sys2Proof
end

