-- ==== Sys2Proof/Config.lean ====
section
/-! DEFINITION. The configuration of spec/00_scope.md R6 (the values this hardware takes, and the OPEN ones as constants without a body), its constraints (R7), and the free values of the spec's `draw(byte)`. -/

namespace Sys2Proof.Config

/-- `TICK_HZ`, ticks per second (R6). No rule of the untimed model reads it (R123). -/
def tickHz : Nat := 1

/-- `PERIOD_SECONDS`, the length of a PWM cycle in seconds (R6). -/
def periodSeconds : Nat := 10

/-- `PERIOD`, the modulus of the tick counter (R6): `TICK_HZ * PERIOD_SECONDS` = 10. -/
def period : Nat := tickHz * periodSeconds

/-- `STAGE`, phase units per heater stage (R6). -/
def stage : Nat := period

/-- `NUM_STAGES`, heater relays staged (R6). -/
def numStages : Nat := 3

/-- `LEVEL_LIMIT`, the smallest rejected heater level (R6): `3 * STAGE + 1` = 31 (R7, conflict C1). -/
def levelLimit : Nat := 3 * stage + 1

/-- `REG_SIZE`, bytes in the register file (R6). -/
def regSize : Nat := 2

/-- `WDT_TIMEOUT_S`, the watchdog deadline in seconds (R6). No rule of the untimed model reads it (R226). -/
def wdtTimeoutSeconds : Nat := 2

/-- The constraints of R7 on a configuration; one outside them is refused before the block runs. -/
def valid (per limit : Nat) : Bool :=
  decide (1 ≤ per) && decide (per ≤ 21) && decide (limit = 3 * per + 1)

/-- `BUS_ADDR`, the responder's own device address (R6): OPEN, decision D4, log 2. -/
opaque busAddr : DeviceAddress

/-- `LOOP_DELAY`, the pause of L.DELAY (R6, R189): OPEN, time only, decision D25, log 16. -/
opaque loopDelay : Nat

/-- `OUT_MAP`, first half: the pin that carries bit `k` of OUT (R6, R35): OPEN, decision D5, log 16. -/
opaque outPin : Fin 5 → Nat

/-- `OUT_MAP`, second half: whether bit `k` of OUT at 1 drives its pin high (R6, R35): OPEN, decision D5, log 16. -/
opaque outActiveHigh : Fin 5 → Bool

/-- The `n`-th value of `draw(byte)` (R9, R140, R141, decision D8): a free value, log 3. -/
opaque drawByte : Nat → Byte

end Sys2Proof.Config
end

