-- ==== Sys2Proof/Syntax.lean ====
section
/-! DEFINITION. The operations of the block, one constructor per row of spec/opcode_table.json, the words that stand for them (spec/30_encoding.md R99, R110) and the reasons a word is refused (R104). -/

namespace Sys2Proof

/-- The operations of spec/00_scope.md R5. A row that shares its word with another (START.W with START, L.KICK with LOOP) is a constructor of its own; which of them an event performs is decided by the state (R108, R109). -/
inductive Instr where
  /-- TICK, the timer-expiry handler (R120). -/
  | tick
  /-- START, the generic event: address `a`, direction `d` (false: write, true: read) (R131). -/
  | start (a : DeviceAddress) (d : Bool)
  /-- START.W: own address, write direction (R132). -/
  | startW
  /-- START.R: own address, read direction (R133). -/
  | startR
  /-- START.MISS: an address other than the block's (R134). -/
  | startMiss (a : DeviceAddress) (d : Bool)
  /-- RX, the generic event: the controller has sent `b` (R135). -/
  | rx (b : Byte)
  /-- RX.INDEX: the index byte of a write transaction (R136). -/
  | rxIndex (v : Byte)
  /-- RX.DATA: a data byte of a write transaction (R137). -/
  | rxData (b : Byte)
  /-- RX.IGNORED: a byte that is not for the block (R138). -/
  | rxIgnored (b : Byte)
  /-- TX: one byte supplied to the controller (R139), and the event 0x300 of which TX.REJ and TX.FOREIGN are the other cases (R100, R109). -/
  | tx
  /-- TX.REJ: a byte asked for after a rejected index (R140). -/
  | txRej
  /-- TX.FOREIGN: a byte that is not the block's to supply (R141). -/
  | txForeign
  /-- NACK: the controller ends the read (R142). -/
  | nack
  /-- STOP: the stop condition (R143). -/
  | stop
  /-- LOOP, the generic event: the control sequencer takes its next step (R190). -/
  | loop
  /-- L.KICK (R181). -/
  | lKick
  /-- L.SNAP, the critical section (R182). -/
  | lSnap
  /-- L.SAMPLE (R184). -/
  | lSample
  /-- L.STRD (R185). -/
  | lStrd
  /-- L.STWR (R186). -/
  | lStwr
  /-- L.PHASE (R187). -/
  | lPhase
  /-- L.DRIVE (R188). -/
  | lDrive
  /-- L.DELAY (R189). -/
  | lDelay
  /-- VENT: the enable line goes to level `v` (R257). -/
  | vent (v : Bool)
  /-- RESET: a restart, `c` when the watchdog caused it (R250). -/
  | reset (c : Bool)
  /-- PATTERN, the heater pattern function applied to an argument word (R160, R110). -/
  | pattern (level : Level) (phase : BitVec 4)
  /-- OUTMASK, the output mask function applied to an argument word (R163, R110). -/
  | outmask (en auxB auxA : Bool) (level : Level) (phase : BitVec 4)
  deriving DecidableEq, Repr

/-- A word that stands for an operation: an event word (R99) or the argument word of one of the two combinational functions (R110), which are told apart by their width. `malformed` is a number of a width the spec defines no word for. -/
inductive TraceWord where
  | event (w : EventWord)
  | pattern (w : PatternWord)
  | outmask (w : OutmaskWord)
  | malformed (nbits w : Nat)
  deriving DecidableEq, Repr

/-- Why the decoder refuses a word (R104, spec/93_implementation_defined.md U4, U19). -/
inductive DecodeError where
  /-- An event kind 0x9 to 0xF. -/
  | unknownKind
  /-- A payload bit that must be zero is not. -/
  | payloadNotZero
  /-- An argument word with level above 30 or phase above 9. -/
  | outsideDomain
  /-- A number of a width the spec defines no word for. -/
  | badWidth
  deriving DecidableEq, Repr

end Sys2Proof
end

