-- ==== Sys2Proof/WellFormed.lean ====
section
/-! DEFINITION. Which instruction terms the spec admits: the operand conditions of spec/opcode_table.json and the domain of the pattern function (spec/42_relay_pattern.md R162). -/

namespace Sys2Proof

/-- The domain of PATTERN and OUTMASK: `level <= 3*STAGE` and `phase < PERIOD` (R162, R110). -/
def inPatternDomain (level phase : Nat) : Bool :=
  decide (level < Config.levelLimit) && decide (phase < Config.period)

/-- START.MISS carries an address other than BUS_ADDR (R134), the arguments of PATTERN and OUTMASK lie in the domain (R110); every other operand value is admitted. -/
def Instr.wellFormed : Instr → Bool
  | .tick => true
  | .start _ _ => true
  | .startW => true
  | .startR => true
  | .startMiss a _ => decide (a ≠ Config.busAddr)
  | .rx _ => true
  | .rxIndex _ => true
  | .rxData _ => true
  | .rxIgnored _ => true
  | .tx => true
  | .txRej => true
  | .txForeign => true
  | .nack => true
  | .stop => true
  | .loop => true
  | .lKick => true
  | .lSnap => true
  | .lSample => true
  | .lStrd => true
  | .lStwr => true
  | .lPhase => true
  | .lDrive => true
  | .lDelay => true
  | .vent _ => true
  | .reset _ => true
  | .pattern level phase => inPatternDomain level.toNat phase.toNat
  | .outmask _ _ _ level phase => inPatternDomain level.toNat phase.toNat

end Sys2Proof
end

