-- ==== Sys2Proof/Decode.lean ====
section
/-! DEFINITION. The decoder and the encoder of the words of spec/30_encoding.md (R99, R100, R104, R110), and the reading of an opcode-table row's bits. -/

namespace Sys2Proof

/-- An operation whose payload must be 0x00 (R100, R104). -/
def plainEvent (payload : Byte) (i : Instr) : Except DecodeError Instr :=
  if payload = 0#8 then .ok i else .error .payloadNotZero

/-- An operation whose payload is one bit under seven zeros (VENT, RESET; R100, R104). -/
def oneBitEvent (payload : Byte) (f : Bool → Instr) : Except DecodeError Instr :=
  if payload.extractLsb' 1 7 = 0#7 then .ok (f (payload.getLsbD 0)) else .error .payloadNotZero

/-- The opcode map of R100. A word shared by several rows of the opcode table decodes to the generic row: the word does not say which one the state selects (R108, R109; log 6). -/
def decodeEvent (w : EventWord) : Except DecodeError Instr :=
  let payload := w.extractLsb' 0 8
  match (w.extractLsb' 8 4).toNat with
  | 0 => plainEvent payload .tick
  | 1 => .ok (.start (payload.extractLsb' 1 7) (payload.getLsbD 0))
  | 2 => .ok (.rx payload)
  | 3 => plainEvent payload .tx
  | 4 => plainEvent payload .nack
  | 5 => plainEvent payload .stop
  | 6 => plainEvent payload .loop
  | 7 => oneBitEvent payload .vent
  | 8 => oneBitEvent payload .reset
  | _ => .error .unknownKind

/-- The argument word `llllllpppp` of PATTERN; only words of the domain are its words (R110). -/
def decodePattern (w : PatternWord) : Except DecodeError Instr :=
  let level := w.extractLsb' 4 6
  let phase := w.extractLsb' 0 4
  if inPatternDomain level.toNat phase.toNat then .ok (.pattern level phase) else .error .outsideDomain

/-- The argument word `eballllllpppp` of OUTMASK; only words of the domain are its words (R110). -/
def decodeOutmask (w : OutmaskWord) : Except DecodeError Instr :=
  let level := w.extractLsb' 4 6
  let phase := w.extractLsb' 0 4
  if inPatternDomain level.toNat phase.toNat then
    .ok (.outmask (w.getLsbD 12) (w.getLsbD 11) (w.getLsbD 10) level phase)
  else .error .outsideDomain

/-- The decoder, total on every word. -/
def decode : TraceWord → Except DecodeError Instr
  | .event w => decodeEvent w
  | .pattern w => decodePattern w
  | .outmask w => decodeOutmask w
  | .malformed _ _ => .error .badWidth

/-- The event of which an operation is a case: the row its word decodes to (R100, R108, R109). -/
def Instr.event : Instr → Instr
  | .tick => .tick
  | .start a d => .start a d
  | .startW => .start Config.busAddr false
  | .startR => .start Config.busAddr true
  | .startMiss a d => .start a d
  | .rx b => .rx b
  | .rxIndex v => .rx v
  | .rxData b => .rx b
  | .rxIgnored b => .rx b
  | .tx => .tx
  | .txRej => .tx
  | .txForeign => .tx
  | .nack => .nack
  | .stop => .stop
  | .loop => .loop
  | .lKick => .loop
  | .lSnap => .loop
  | .lSample => .loop
  | .lStrd => .loop
  | .lStwr => .loop
  | .lPhase => .loop
  | .lDrive => .loop
  | .lDelay => .loop
  | .vent v => .vent v
  | .reset c => .reset c
  | .pattern level phase => .pattern level phase
  | .outmask en auxB auxA level phase => .outmask en auxB auxA level phase

/-- `{kind, payload}` (R99). -/
def eventWord (kind : BitVec 4) (payload : Byte) : EventWord := kind ++ payload

/-- The address byte `{a[6:0], d}` (R91, R100). -/
def addressByte (a : DeviceAddress) (d : Bool) : Byte := a ++ BitVec.ofBool d

/-- A payload of one bit under seven zeros (R100). -/
def bitByte (b : Bool) : Byte := 0#7 ++ BitVec.ofBool b

/-- The argument word `llllllpppp` (R110). -/
def patternWord (level : Level) (phase : BitVec 4) : PatternWord := level ++ phase

/-- The argument word `eballllllpppp` (R110). -/
def outmaskWord (en auxB auxA : Bool) (level : Level) (phase : BitVec 4) : OutmaskWord :=
  BitVec.ofBool en ++ BitVec.ofBool auxB ++ BitVec.ofBool auxA ++ level ++ phase

/-- The encoder, row by row from the encodings of spec/opcode_table.json and R100, R110. -/
def encode : Instr → TraceWord
  | .tick => .event (eventWord 0x0#4 0x00#8)
  | .start a d => .event (eventWord 0x1#4 (addressByte a d))
  | .startW => .event (eventWord 0x1#4 (addressByte Config.busAddr false))
  | .startR => .event (eventWord 0x1#4 (addressByte Config.busAddr true))
  | .startMiss a d => .event (eventWord 0x1#4 (addressByte a d))
  | .rx b => .event (eventWord 0x2#4 b)
  | .rxIndex v => .event (eventWord 0x2#4 v)
  | .rxData b => .event (eventWord 0x2#4 b)
  | .rxIgnored b => .event (eventWord 0x2#4 b)
  | .tx => .event (eventWord 0x3#4 0x00#8)
  | .txRej => .event (eventWord 0x3#4 0x00#8)
  | .txForeign => .event (eventWord 0x3#4 0x00#8)
  | .nack => .event (eventWord 0x4#4 0x00#8)
  | .stop => .event (eventWord 0x5#4 0x00#8)
  | .loop => .event (eventWord 0x6#4 0x00#8)
  | .lKick => .event (eventWord 0x6#4 0x00#8)
  | .lSnap => .event (eventWord 0x6#4 0x00#8)
  | .lSample => .event (eventWord 0x6#4 0x00#8)
  | .lStrd => .event (eventWord 0x6#4 0x00#8)
  | .lStwr => .event (eventWord 0x6#4 0x00#8)
  | .lPhase => .event (eventWord 0x6#4 0x00#8)
  | .lDrive => .event (eventWord 0x6#4 0x00#8)
  | .lDelay => .event (eventWord 0x6#4 0x00#8)
  | .vent v => .event (eventWord 0x7#4 (bitByte v))
  | .reset c => .event (eventWord 0x8#4 (bitByte c))
  | .pattern level phase => .pattern (patternWord level phase)
  | .outmask en auxB auxA level phase => .outmask (outmaskWord en auxB auxA level phase)

/-- The word a table row's bits are: 10 bits an argument word of PATTERN, 13 bits one of OUTMASK, any other width (12 bits, or 16 where the table's widths are rounded to whole bytes) an event word where the number fits 12 bits and an argument word of OUTMASK where only 13 hold it (log 17). -/
def tableWord (nbits w : Nat) : TraceWord :=
  if nbits = 10 then
    if w < 2 ^ 10 then .pattern (BitVec.ofNat 10 w) else .malformed nbits w
  else if nbits = 13 then
    if w < 2 ^ 13 then .outmask (BitVec.ofNat 13 w) else .malformed nbits w
  else if nbits = 12 ∨ nbits = 16 then
    if w < 2 ^ 12 then .event (BitVec.ofNat 12 w)
    else if nbits = 16 ∧ w < 2 ^ 13 then .outmask (BitVec.ofNat 13 w)
    else .malformed nbits w
  else .malformed nbits w

/-- The instruction the decoder reads from a table row's bits. -/
def decodeTableWord (nbits w : Nat) : Option Instr :=
  match decode (tableWord nbits w) with
  | .ok i => some i
  | .error _ => none

end Sys2Proof
end

