-- ==== Sys2Proof/Machine/State.lean ====
section
/-! DEFINITION. The state of the block (spec/10_state.md R20), the outputs of a step, the reasons a step can stop, and the state after reset (spec/70_reset_and_hazards.md R252). -/

namespace Sys2Proof.Machine

/-- The protocol state of the bus responder (R28). -/
inductive BusState where
  /-- `IDLE`: not addressed. -/
  | idle
  /-- `AW`: addressed for write, the next byte is the index. -/
  | aw
  /-- `IX`: an index byte has come, further bytes are data. -/
  | ix
  /-- `AR`: addressed for read. -/
  | ar
  deriving DecidableEq, Repr

/-- The step pointer of the control sequencer (R34). -/
inductive SeqStep where
  | kick
  | snap
  | sample
  | strd
  | stwr
  | phase
  | drive
  | delay
  deriving DecidableEq, Repr

/-- The four named conditions (R210, R215): a closed list; their order carries no priority. `unexpectedRestart` is a record in STATUS, which no step raises (R214). -/
inductive Condition where
  | invalidRequest
  | indexOutOfRange
  | livenessLoss
  | unexpectedRestart
  deriving DecidableEq, Repr

/-- `raise <Fault>(info)` (R9): the condition's name and the byte it is raised with, where there is one. -/
structure Raised where
  name : Condition
  info : Option Byte
  deriving DecidableEq, Repr

/-- The outputs of one step, which the spec does not count as state: the model's own record of them, read by no operation (log 4). -/
structure Observation where
  /-- The acknowledge the responder drives (R144). -/
  ack : Bool := false
  /-- The byte `t` of a TX step (R139 to R141). -/
  sent : Option Byte := none
  /-- The result of PATTERN (R160). -/
  heater : Option HeaterMask := none
  /-- The result of OUTMASK (R163). -/
  mask : Option OutMask := none
  /-- The condition raised (R9, R210). -/
  raised : Option Raised := none
  deriving DecidableEq, Repr

/-- The state of the block: every element of R20 and R36, then three fields of the model's own. -/
structure State where
  /-- `REG[0]`, STATUS (R21 to R24). -/
  status : Byte
  /-- `REG[1]`, CONTROL (R21, R25 to R27). -/
  control : Byte
  /-- `bst` (R28). -/
  bst : BusState
  /-- `ptr`, the register index pointer (R29). -/
  ptr : RegIndex
  /-- `rej`, the index of this transaction was rejected (R30). -/
  rej : Bool
  /-- `tick`, the tick counter, one byte (R31). -/
  tick : Byte
  /-- `level`, the last validated level (R32). -/
  level : Level
  /-- `auxA` (R32). -/
  auxA : Bool
  /-- `auxB` (R32). -/
  auxB : Bool
  /-- `en`, the last sample of the enable line (R33). -/
  en : Bool
  /-- `stmp`, the STATUS byte between L.STRD and L.STWR (R33). -/
  stmp : Byte
  /-- `ph`, the phase sampled in L.PHASE (R33). -/
  ph : Byte
  /-- `lpc`, the step pointer of the control sequencer (R34). -/
  lpc : SeqStep
  /-- `OUT`, the output latch (R35). -/
  out : OutMask
  /-- `vent_n`, the enable line, owned by the environment (R36). -/
  ventN : Bool
  /-- `wdrf`, the platform's reset-cause flag (R37). -/
  wdrf : Bool
  /-- `wdt_en`, the watchdog is enabled (R38). -/
  wdtEn : Bool
  /-- `irq_mask`, interrupt handlers are held off (R39). -/
  irqMask : Bool
  /-- The model's own: the words of the events still to happen, oldest first (log 1). -/
  trace : List TraceWord
  /-- The model's own: how many values of `draw(byte)` have been taken (log 3). -/
  draws : Nat
  /-- The model's own: the outputs of the last step (log 4). -/
  obs : Observation
  deriving DecidableEq, Repr

/-- The state right after `RESET 0`, element by element as R252 lists it; `ventN` is the environment's and stands at its default level 1 (R36, D20, log 13), and no event is waiting (log 1). -/
def State.reset : State where
  status := 0x02#8
  control := 0x00#8
  bst := .idle
  ptr := 0#1
  rej := false
  tick := 0#8
  level := 0#6
  auxA := false
  auxB := false
  en := false
  stmp := 0#8
  ph := 0#8
  lpc := .kick
  out := 0#5
  ventN := true
  wdrf := false
  wdtEn := true
  irqMask := false
  trace := []
  draws := 0
  obs := {}

/-- No constructor: no behaviour of the block stops it with a fault (spec/93_implementation_defined.md, the sentence after U19). -/
inductive Fault where
  deriving DecidableEq, Repr

/-- Why a step is refused. Every refusal is safe: the model stops where the spec gives no behaviour. -/
inductive Refusal where
  /-- Raised by an arm of `exec` whose instruction has no meaning yet. Safe. -/
  | notModelled (mnemonic : String)
  /-- Raised by `step` on a word that is no event word or lies outside the argument domain (R104, U19). Safe. -/
  | badWord (reason : DecodeError)
  /-- Raised by a row that the state does not select: L.SNAP asked for while `lpc` names another step, RX.DATA outside `IX`, START.MISS with the block's own address (R108, R109, the table's "when"; log 5). Safe. -/
  | notSelected (row : String)
  /-- Raised by PATTERN, OUTMASK and L.DRIVE where the pattern function would be applied outside its domain (R162, U4; log 7). Safe. -/
  | outsideDomain
  deriving DecidableEq, Repr

end Sys2Proof.Machine
end

