-- ==== Sys2Proof/Machine/Operands.lean ====
section
/-! DEFINITION. How each operand is taken out of its byte, and put back (spec/30_encoding.md R92, R94, R101 to R103). -/

namespace Sys2Proof.Machine

/-- The heater level of a CONTROL byte, bits 5:0 (R94, R101). -/
def controlLevel (b : Byte) : Level := b.extractLsb' 0 6

/-- The auxiliary relay A request of a CONTROL byte, bit 6 (R94, R101). -/
def controlAuxA (b : Byte) : Bool := b.getLsbD 6

/-- The auxiliary relay B request of a CONTROL byte, bit 7 (R94, R101). -/
def controlAuxB (b : Byte) : Bool := b.getLsbD 7

/-- The CONTROL byte `{auxB, auxA, level[5:0]}`: the echo (R101, R183, decision D16). -/
def controlByte (auxB auxA : Bool) (level : Level) : Byte :=
  BitVec.ofBool auxB ++ BitVec.ofBool auxA ++ level

/-- A level the validation accepts: `zext_6(s[5:0]) < LEVEL_LIMIT` (R25, R182). -/
def validLevel (level : Level) : Bool := decide (level.toNat < Config.levelLimit)

/-- An index byte that selects a register: the whole byte, unsigned, below `REG_SIZE` (R92). -/
def validIndex (v : Byte) : Bool := decide (v.toNat < Config.regSize)

/-- The register an in-range index byte selects: its bit 0 (R102). -/
def indexBit (v : Byte) : RegIndex := v.extractLsb' 0 1

/-- The pointer after one transfer: `(ptr + 1) mod REG_SIZE` (R29, R137, R139, conflict C4). -/
def nextPtr (p : RegIndex) : RegIndex := BitVec.ofNat 1 ((p.toNat + 1) % Config.regSize)

/-- The device address compare: equality of all seven bits, no mask, no second address (R103, decision D22). -/
def ownAddress (own a : DeviceAddress) : Bool := decide (a = own)

/-- The step that follows in the fixed cyclic order (R34, R108, R190). -/
def nextStep : SeqStep → SeqStep
  | .kick => .snap
  | .snap => .sample
  | .sample => .strd
  | .strd => .stwr
  | .stwr => .phase
  | .phase => .drive
  | .drive => .delay
  | .delay => .kick

/-- The operation a LOOP event performs (R108). -/
def loopRow : SeqStep → Instr
  | .kick => .lKick
  | .snap => .lSnap
  | .sample => .lSample
  | .strd => .lStrd
  | .stwr => .lStwr
  | .phase => .lPhase
  | .drive => .lDrive
  | .delay => .lDelay

/-- The row of the opcode table that an event performs in a state (R108, R109). The RX row is RX.INDEX, RX.DATA or RX.IGNORED by `bst`; NACK and STOP have one row for every `bst`. -/
def selectedRow (s : State) : Instr → Instr
  | .start a d =>
    if ownAddress Config.busAddr a then (if d then .startR else .startW) else .startMiss a d
  | .rx b =>
    match s.bst with
    | .aw => .rxIndex b
    | .ix => .rxData b
    | .idle | .ar => .rxIgnored b
  | .tx =>
    match s.bst with
    | .ar => if s.rej then .txRej else .tx
    | .idle | .aw | .ix => .txForeign
  | .loop => loopRow s.lpc
  | i => i

end Sys2Proof.Machine
end

