-- ==== Sys2Proof/Machine/Flags.lean ====
section
/-! DEFINITION. The two STATUS flags, the block's only flags (spec/10_state.md R22 to R24, R43), and the bytes their writers store. -/

namespace Sys2Proof.Machine

/-- `HDIS`, STATUS bit 0: heater output forced off (R22). -/
def statusHdis (b : Byte) : Bool := b.getLsbD 0

/-- `WDOK`, STATUS bit 1, inverted sense: 0 after a watchdog restart (R23). -/
def statusWdok (b : Byte) : Bool := b.getLsbD 1

/-- What L.STWR stores: `stmp & 0xFE` with the ventilation active, `stmp | 0x01` with it inactive (R186). -/
def statusUpdate (en : Bool) (stmp : Byte) : Byte :=
  if en then stmp &&& 0xFE#8 else stmp ||| 0x01#8

/-- What STARTUP records: `WDOK <- 1 - wdrf`, every other bit 0 (R251, R253). -/
def restartStatus (wdrf : Bool) : Byte :=
  if wdrf then 0x00#8 else 0x02#8

end Sys2Proof.Machine
end

