-- ==== Sys2Proof/Machine/Ops.lean ====
section
/-! DEFINITION. The operations over the state that the meanings share: access to the register file, the index pointer, the critical section, drawn values, the restart (the block's one trap-like transfer), and the fetch of the next event. -/

namespace Sys2Proof.Machine

/-- The index of STATUS (R21, R61). -/
def statusIx : RegIndex := 0#1

/-- The index of CONTROL (R21, R61). -/
def controlIx : RegIndex := 1#1

/-- `MemRead(i, 1)`: the byte `REG[i]` (R62). -/
def State.reg (s : State) (i : RegIndex) : Byte :=
  if i = statusIx then s.status else s.control

/-- `MemWrite(i, 1, v)`: `REG[i] <- v` (R62). -/
def State.setReg (s : State) (i : RegIndex) (v : Byte) : State :=
  if i = statusIx then { s with status := v } else { s with control := v }

/-- `ptr <- (ptr + 1) mod REG_SIZE` (R29, R137, R139). -/
def State.advancePtr (s : State) : State := { s with ptr := nextPtr s.ptr }

/-- `bst <- IDLE; rej <- 0`: the end of a transaction (R30, R134, R142, R143). -/
def State.endTransaction (s : State) : State := { s with bst := .idle, rej := false }

/-- The step's outputs. -/
def State.observe (s : State) (o : Observation) : State := { s with obs := o }

/-- A step with no output: nothing acknowledged, sent or raised. -/
def State.quiet (s : State) : State := s.observe {}

/-- `t <- draw(byte)` (R9, R140, R141): the next free byte is sent (log 3). -/
def State.sendDrawn (s : State) : State :=
  { s with draws := s.draws + 1, obs := { sent := some (Config.drawByte s.draws) } }

/-- `lpc` moves to the next name of the order (R34, R190). -/
def State.advanceLpc (s : State) : State := { s with lpc := nextStep s.lpc }

/-- Interrupts masked for the duration of `f`, then unmasked (R39, R68, R220). -/
def State.critical (s : State) (f : State → State) : State :=
  { f { s with irqMask := true } with irqMask := false }

/-- STARTUP line 1: "clear Register File to zero" (R251). -/
def State.clearRegisterFile (s : State) : State := { s with status := 0x00#8, control := 0x00#8 }

/-- STARTUP lines 2 and 3: the restart cause is recorded in STATUS, then the platform's flag is cleared (R251, R253). -/
def State.recordCause (s : State) : State :=
  { s with status := restartStatus s.wdrf, wdrf := false }

/-- STARTUP line 4: the watchdog is enabled (R251). -/
def State.enableWatchdog (s : State) : State := { s with wdtEn := true }

/-- STARTUP line 5: bus responder and tick source are started (R251, decisions D6, D7). -/
def State.startHandlers (s : State) : State :=
  { s with bst := .idle, ptr := 0#1, rej := false, tick := 0#8 }

/-- The local state, the sequencer and the output latch at startup (R251, decisions D15, D17, D20). -/
def State.startSequencer (s : State) : State :=
  { s with level := 0#6, auxA := false, auxB := false, en := false, stmp := 0#8, ph := 0#8,
           lpc := .kick, out := 0#5 }

/-- STARTUP: interrupts are off until its last act (R251). -/
def State.startup (s : State) : State :=
  s.critical fun u =>
    u.clearRegisterFile.recordCause.enableWatchdog.startHandlers.startSequencer

/-- What a restart raises: LivenessLoss when the watchdog forced it, nothing otherwise (R210, R213). -/
def restartCondition (c : Bool) : Option Raised :=
  if c then some ⟨.livenessLoss, none⟩ else none

/-- The restart: the platform records the cause, then STARTUP runs; it writes every element of the block, so nothing the restart leaves unspecified survives (R250). The enable line and the waiting events are the environment's and stay. -/
def State.restart (s : State) (c : Bool) : State :=
  { s with wdrf := s.wdrf || c }.startup.observe { raised := restartCondition c }

/-- The word of the event that happens next: the oldest one waiting; with none waiting, the control sequencer takes its next step, since LOOP is always enabled (R71, R190; log 1). -/
def State.nextWord (s : State) : TraceWord :=
  match s.trace with
  | [] => .event 0x600#12
  | w :: _ => w

/-- The oldest waiting event is taken. -/
def State.consumeWord (s : State) : State := { s with trace := s.trace.tail }

/-- The electrical level of the pin that carries bit `k` of OUT (R35, R230; `OUT_MAP` is open). -/
def State.pinLevel (s : State) (k : Fin 5) : Bool :=
  s.out.getLsbD k == Config.outActiveHigh k

end Sys2Proof.Machine
end

