-- ==== Sys2Proof/Machine/Bus.lean ====
section
/-! DEFINITION. The bus register interface: START, RX, TX, NACK, STOP and the cases of them that the address and the protocol state select (spec/41_bus_register_interface.md, spec/30_encoding.md R109). -/

namespace Sys2Proof.Machine

/-- START.W: `bst <- AW`, acknowledged (R132). -/
def startWriteOp (s : State) : State := { s with bst := .aw, obs := { ack := true } }

/-- START.R: `bst <- AR`, acknowledged; no register is read (R133). -/
def startReadOp (s : State) : State := { s with bst := .ar, obs := { ack := true } }

/-- START.MISS: back to `IDLE`, not acknowledged (R134). -/
def startMissOp (s : State) : State := s.endTransaction.quiet

/-- START(a, d) for a responder whose own address is `own` (R131). -/
def startOp (own a : DeviceAddress) (d : Bool) (s : State) : State :=
  if ownAddress own a then (if d then startReadOp s else startWriteOp s) else startMissOp s

/-- RX.INDEX: an in-range byte sets the pointer, any other is rejected and leaves it; acknowledged either way (R136, R212). -/
def rxIndexOp (v : Byte) (s : State) : State :=
  if validIndex v then
    { s with ptr := indexBit v, rej := false, bst := .ix, obs := { ack := true } }
  else
    { s with rej := true, bst := .ix,
             obs := { ack := true, raised := some ⟨.indexOutOfRange, some v⟩ } }

/-- RX.DATA: the byte is stored at the pointer, which moves on; after a rejected index it is discarded; acknowledged either way (R137). -/
def rxDataOp (b : Byte) (s : State) : State :=
  if s.rej then s.observe { ack := true }
  else ((s.setReg s.ptr b).advancePtr).observe { ack := true }

/-- RX while `IDLE` or `AR`: no state changes, not acknowledged (R138). -/
def rxIgnoredOp (s : State) : State := s.quiet

/-- TX while `AR` with a selected index: the register at the pointer is sent and the pointer moves on (R139). -/
def txOp (s : State) : State := s.advancePtr.observe { sent := some (s.reg s.ptr) }

/-- TX while `AR` after a rejected index: no register is read (R140). -/
def txRejOp (s : State) : State := s.sendDrawn

/-- TX outside `AR`: the byte is not the block's (R141). -/
def txForeignOp (s : State) : State := s.sendDrawn

/-- NACK ends a read, and does nothing outside one (R142). -/
def nackOp (s : State) : State :=
  match s.bst with
  | .ar => s.endTransaction.quiet
  | .idle | .aw | .ix => s.quiet

/-- RX by protocol state (R109, R135). -/
def rxOp (b : Byte) (s : State) : State :=
  match s.bst with
  | .aw => rxIndexOp b s
  | .ix => rxDataOp b s
  | .idle | .ar => rxIgnoredOp s

/-- TX by protocol state (R109, R139 to R141). -/
def txEventOp (s : State) : State :=
  match s.bst with
  | .ar => if s.rej then txRejOp s else txOp s
  | .idle | .aw | .ix => txForeignOp s

/-- START (R131). -/
def execStart (a : DeviceAddress) (d : Bool) (s : State) : Host.Outcome State Fault Refusal :=
  .next (startOp Config.busAddr a d s)

/-- START.W, the own address written for: every `bst` (R132, R131). -/
def execStartW (s : State) : Host.Outcome State Fault Refusal :=
  .next (startWriteOp s)

/-- START.R, the own address read from: every `bst` (R133, R131). -/
def execStartR (s : State) : Host.Outcome State Fault Refusal :=
  .next (startReadOp s)

/-- START.MISS, for an address other than the own one; its direction is ignored (R134). -/
def execStartMiss (a : DeviceAddress) (s : State) : Host.Outcome State Fault Refusal :=
  if ownAddress Config.busAddr a then .refused (.notSelected "START.MISS") else .next (startMissOp s)

/-- RX (R135). -/
def execRx (b : Byte) (s : State) : Host.Outcome State Fault Refusal :=
  .next (rxOp b s)

/-- RX.INDEX, in `AW` (R136). -/
def execRxIndex (v : Byte) (s : State) : Host.Outcome State Fault Refusal :=
  match s.bst with
  | .aw => .next (rxIndexOp v s)
  | .idle | .ix | .ar => .refused (.notSelected "RX.INDEX")

/-- RX.DATA, in `IX` (R137). -/
def execRxData (b : Byte) (s : State) : Host.Outcome State Fault Refusal :=
  match s.bst with
  | .ix => .next (rxDataOp b s)
  | .idle | .aw | .ar => .refused (.notSelected "RX.DATA")

/-- RX.IGNORED, in `IDLE` and `AR` (R138). -/
def execRxIgnored (s : State) : Host.Outcome State Fault Refusal :=
  match s.bst with
  | .idle | .ar => .next (rxIgnoredOp s)
  | .aw | .ix => .refused (.notSelected "RX.IGNORED")

/-- TX: the event 0x300 in every state, R139 where `bst = AR` and `rej = 0`, else R140 or R141. -/
def execTx (s : State) : Host.Outcome State Fault Refusal :=
  .next (txEventOp s)

/-- TX.REJ, in `AR` with `rej = 1` (R140). -/
def execTxRej (s : State) : Host.Outcome State Fault Refusal :=
  match s.bst, s.rej with
  | .ar, true => .next (txRejOp s)
  | _, _ => .refused (.notSelected "TX.REJ")

/-- TX.FOREIGN, outside `AR` (R141). -/
def execTxForeign (s : State) : Host.Outcome State Fault Refusal :=
  match s.bst with
  | .idle | .aw | .ix => .next (txForeignOp s)
  | .ar => .refused (.notSelected "TX.FOREIGN")

/-- NACK (R142). -/
def execNack (s : State) : Host.Outcome State Fault Refusal :=
  .next (nackOp s)

/-- STOP, in every `bst` (R143). -/
def execStop (s : State) : Host.Outcome State Fault Refusal :=
  .next s.endTransaction.quiet

end Sys2Proof.Machine
end

