-- ==== Sys2Proof/Machine/Environment.lean ====
section
/-! DEFINITION. The environment's events: VENT and RESET (spec/70_reset_and_hazards.md R250 to R257). -/

namespace Sys2Proof.Machine

/-- VENT: `vent_n <- v`, with no immediate effect on the block (R257). -/
def execVent (v : Bool) (s : State) : Host.Outcome State Fault Refusal :=
  .next { s.quiet with ventN := v }

/-- RESET, from any state (R250; log 9). -/
def execReset (c : Bool) (s : State) : Host.Outcome State Fault Refusal :=
  .next (s.restart c)

end Sys2Proof.Machine
end

