-- ==== Sys2Proof/Machine/Relay.lean ====
section
/-! DEFINITION. The relay pattern engine: PATTERN and OUTMASK, pure functions of their arguments (spec/42_relay_pattern.md). -/

namespace Sys2Proof.Machine

/-- `{r3, r2, r1}` (R160). -/
def heaterMask (r3 r2 r1 : Bool) : HeaterMask :=
  BitVec.ofBool r3 ++ BitVec.ofBool r2 ++ BitVec.ofBool r1

/-- PATTERN for a stage of `S` phase units: the three branches of R160, comparisons unsigned and strict (R167). -/
def relayPattern (S level phase : Nat) : HeaterMask :=
  if 2 * S < level then heaterMask (decide (phase < level - 2 * S)) true true
  else if S < level then heaterMask false (decide (phase < level - S)) true
  else heaterMask false false (decide (phase < level))

/-- PATTERN on this hardware's domain; no value outside it (R162, U4). -/
def pattern? (level phase : Nat) : Option HeaterMask :=
  if inPatternDomain level phase then some (relayPattern Config.stage level phase) else none

/-- `{auxB, auxA, h[2], h[1], h[0]}` (R163, R164). -/
def outputMask (auxB auxA : Bool) (h : HeaterMask) : OutMask :=
  BitVec.ofBool auxB ++ BitVec.ofBool auxA ++ h

/-- OUTMASK: PATTERN of the arguments with the ventilation active, of level 0 and phase 0 without it; the auxiliary bits pass through (R163, R164). -/
def outmask? (level phase : Nat) (auxA auxB en : Bool) : Option OutMask :=
  (if en then pattern? level phase else pattern? 0 0).map (outputMask auxB auxA)

/-- PATTERN of an argument word: its value is the step's output, no state is read or written (R160, R166, R110; log 7). -/
def execPattern (level : Level) (phase : BitVec 4) (s : State) : Host.Outcome State Fault Refusal :=
  match pattern? level.toNat phase.toNat with
  | some h => .next (s.observe { heater := some h })
  | none => .refused .outsideDomain

/-- OUTMASK of an argument word: its value is the step's output, no state is read or written (R163, R166, R110; log 7). -/
def execOutmask (en auxB auxA : Bool) (level : Level) (phase : BitVec 4) (s : State) :
    Host.Outcome State Fault Refusal :=
  match outmask? level.toNat phase.toNat auxA auxB en with
  | some m => .next (s.observe { mask := some m })
  | none => .refused .outsideDomain

end Sys2Proof.Machine
end

