-- ==== Sys2Proof/Machine/Tick.lean ====
section
/-! DEFINITION. The tick source: TICK and the read contract `current_phase()` (spec/40_tick_source.md). -/

namespace Sys2Proof.Machine

/-- `(tick + 1) mod PERIOD`, the sum exact (R120, R124). -/
def nextTick (t : Byte) : Byte := BitVec.ofNat 8 ((t.toNat + 1) % Config.period)

/-- `current_phase()`: the counter as it stands (R121). -/
def currentPhase (s : State) : Byte := s.tick

/-- TICK (R120). -/
def execTick (s : State) : Host.Outcome State Fault Refusal :=
  .next { s.quiet with tick := nextTick s.tick }

end Sys2Proof.Machine
end

