-- ==== Sys2Proof/Machine/Sequencer.lean ====
section
/-! DEFINITION. The control sequencer: the eight L operations and LOOP, which performs the one `lpc` names (spec/43_control_loop.md, spec/30_encoding.md R108). -/

namespace Sys2Proof.Machine

/-- L.KICK: the watchdog's elapsed time, which is not state of the untimed model, goes back to zero (R181). -/
def kickOp (s : State) : State := s.quiet.advanceLpc

/-- The body of the critical section: a snapshot with a valid level is accepted, any other is overwritten in the register by the last-known-good byte (R182, R183). -/
def snapshotBody (s : State) : State :=
  let b := s.reg controlIx
  if validLevel (controlLevel b) then
    { s.quiet with level := controlLevel b, auxA := controlAuxA b, auxB := controlAuxB b }
  else
    (s.setReg controlIx (controlByte s.auxB s.auxA s.level)).observe
      { raised := some ⟨.invalidRequest, some b⟩ }

/-- L.SNAP (R182). -/
def snapOp (s : State) : State := (s.critical snapshotBody).advanceLpc

/-- L.SAMPLE: `en <- (vent_n = 0)` (R184). -/
def sampleOp (s : State) : State := { s.quiet with en := !s.ventN }.advanceLpc

/-- L.STRD: `stmp <- REG[0]` (R185). -/
def statusReadOp (s : State) : State := { s.quiet with stmp := s.reg statusIx }.advanceLpc

/-- L.STWR: STATUS is written with `HDIS` set or cleared and the other bits as L.STRD saw them (R186). -/
def statusWriteOp (s : State) : State :=
  (s.quiet.setReg statusIx (statusUpdate s.en s.stmp)).advanceLpc

/-- L.PHASE: the phase of this iteration, 0 while the heater is disabled (R187). -/
def phaseOp (s : State) : State :=
  { s.quiet with ph := if s.en then currentPhase s else 0#8 }.advanceLpc

/-- L.DRIVE: `OUT <- OUTMASK(level, ph, auxA, auxB, en)` in one write (R188, R70). The pattern function has no value outside its domain, which no reachable state asks for (R162, R41). -/
def driveOp (s : State) : Host.Outcome State Fault Refusal :=
  match outmask? s.level.toNat s.ph.toNat s.auxA s.auxB s.en with
  | some m => .next { s.quiet with out := m }.advanceLpc
  | none => .refused .outsideDomain

/-- L.DELAY: a pause of `LOOP_DELAY`, which is time only (R189). -/
def delayOp (s : State) : State := s.quiet.advanceLpc

/-- LOOP: the operation `lpc` names (R108, R190). -/
def execLoop (s : State) : Host.Outcome State Fault Refusal :=
  match s.lpc with
  | .kick => .next (kickOp s)
  | .snap => .next (snapOp s)
  | .sample => .next (sampleOp s)
  | .strd => .next (statusReadOp s)
  | .stwr => .next (statusWriteOp s)
  | .phase => .next (phaseOp s)
  | .drive => driveOp s
  | .delay => .next (delayOp s)

/-- A row of the sequencer runs only where `lpc` names it (R108; log 5). -/
def whenAt (p : SeqStep) (row : String) (s : State) (answer : Host.Outcome State Fault Refusal) :
    Host.Outcome State Fault Refusal :=
  if s.lpc = p then answer else .refused (.notSelected row)

/-- L.KICK, at `lpc = KICK` (R181). -/
def execLKick (s : State) : Host.Outcome State Fault Refusal :=
  whenAt .kick "L.KICK" s (.next (kickOp s))

/-- L.SNAP, at `lpc = SNAP` (R182). -/
def execLSnap (s : State) : Host.Outcome State Fault Refusal :=
  whenAt .snap "L.SNAP" s (.next (snapOp s))

/-- L.SAMPLE, at `lpc = SAMPLE` (R184). -/
def execLSample (s : State) : Host.Outcome State Fault Refusal :=
  whenAt .sample "L.SAMPLE" s (.next (sampleOp s))

/-- L.STRD, at `lpc = STRD` (R185). -/
def execLStrd (s : State) : Host.Outcome State Fault Refusal :=
  whenAt .strd "L.STRD" s (.next (statusReadOp s))

/-- L.STWR, at `lpc = STWR` (R186). -/
def execLStwr (s : State) : Host.Outcome State Fault Refusal :=
  whenAt .stwr "L.STWR" s (.next (statusWriteOp s))

/-- L.PHASE, at `lpc = PHASE` (R187). -/
def execLPhase (s : State) : Host.Outcome State Fault Refusal :=
  whenAt .phase "L.PHASE" s (.next (phaseOp s))

/-- L.DRIVE, at `lpc = DRIVE` (R188). -/
def execLDrive (s : State) : Host.Outcome State Fault Refusal :=
  whenAt .drive "L.DRIVE" s (driveOp s)

/-- L.DELAY, at `lpc = DELAY` (R189). -/
def execLDelay (s : State) : Host.Outcome State Fault Refusal :=
  whenAt .delay "L.DELAY" s (.next (delayOp s))

end Sys2Proof.Machine
end

