-- ==== Sys2Proof/Machine/Dispatch.lean ====
section
/-! DEFINITION. exec: one arm per row of spec/opcode_table.json. -/

namespace Sys2Proof.Machine

def exec (i : Instr) (s : State) : Host.Outcome State Fault Refusal :=
  match i with
  | .tick => Sys2Proof.Machine.execTick s
  | .start a d => Sys2Proof.Machine.execStart a d s
  | .startW => Sys2Proof.Machine.execStartW s
  | .startR => Sys2Proof.Machine.execStartR s
  | .startMiss a _ => Sys2Proof.Machine.execStartMiss a s
  | .rx b => Sys2Proof.Machine.execRx b s
  | .rxIndex v => Sys2Proof.Machine.execRxIndex v s
  | .rxData b => Sys2Proof.Machine.execRxData b s
  | .rxIgnored _ => Sys2Proof.Machine.execRxIgnored s
  | .tx => Sys2Proof.Machine.execTx s
  | .txRej => Sys2Proof.Machine.execTxRej s
  | .txForeign => Sys2Proof.Machine.execTxForeign s
  | .nack => Sys2Proof.Machine.execNack s
  | .stop => Sys2Proof.Machine.execStop s
  | .loop => Sys2Proof.Machine.execLoop s
  | .lKick => Sys2Proof.Machine.execLKick s
  | .lSnap => Sys2Proof.Machine.execLSnap s
  | .lSample => Sys2Proof.Machine.execLSample s
  | .lStrd => Sys2Proof.Machine.execLStrd s
  | .lStwr => Sys2Proof.Machine.execLStwr s
  | .lPhase => Sys2Proof.Machine.execLPhase s
  | .lDrive => Sys2Proof.Machine.execLDrive s
  | .lDelay => Sys2Proof.Machine.execLDelay s
  | .vent v => Sys2Proof.Machine.execVent v s
  | .reset c => Sys2Proof.Machine.execReset c s
  | .pattern level phase => Sys2Proof.Machine.execPattern level phase s
  | .outmask en auxB auxA level phase => Sys2Proof.Machine.execOutmask en auxB auxA level phase s

end Sys2Proof.Machine
end

