-- ==== Sys2Proof/Machine/Step.lean ====
section
/-! DEFINITION. One step: the next event's word is taken, decoded and executed (spec/20_memory.md R66, R71). -/

namespace Sys2Proof.Machine

/-- One atomic step of one agent (R66, R71). -/
def step (s : State) : Host.Outcome State Fault Refusal :=
  match decode s.nextWord with
  | .ok i => exec i s.consumeWord
  | .error e => .refused (.badWord e)

/-- `s` with the word of a table row put before the events that wait, so that the next step runs it (log 1). -/
def State.withFetchWord (s : State) (nbits w : Nat) : State :=
  { s with trace := tableWord nbits w :: s.trace }

end Sys2Proof.Machine
end

