-- ==== Sys2Proof/Machine/Run.lean ====
section
/-! DEFINITION. Runs of several operations (spec/20_memory.md R71), and the spec's transactions and pseudo-operations as lists of operations (spec/30_encoding.md R96 to R98, R106, R107). -/

namespace Sys2Proof.Machine

/-- The operations of a list one after another, up to the first that stops. -/
def execAll : List Instr → State → Host.Outcome State Fault Refusal
  | [], s => .next s
  | i :: is, s =>
    match exec i s with
    | .next t => execAll is t
    | .fault r => .fault r
    | .refused r => .refused r

/-- The byte each operation of a list sends to the controller, in order, where all of them answer a next state. -/
def sentBytes : List Instr → State → Option (List (Option Byte))
  | [], _ => some []
  | i :: is, s =>
    match exec i s with
    | .next t => (sentBytes is t).map (t.obs.sent :: ·)
    | .fault _ => none
    | .refused _ => none

/-- `WRITE i, b0, ..., bn-1` for a responder at address `own` (R96, R107). -/
def pseudoWrite (own : DeviceAddress) (i : Byte) (bs : List Byte) : List Instr :=
  [.start own false, .rx i] ++ bs.map .rx ++ [.stop]

/-- `SETIDX i` (R107). -/
def pseudoSetIdx (own : DeviceAddress) (i : Byte) : List Instr := pseudoWrite own i []

/-- `READ n` (R97, R107). -/
def pseudoRead (own : DeviceAddress) (n : Nat) : List Instr :=
  [.start own true] ++ List.replicate n .tx ++ [.nack, .stop]

/-- `READAT i, n`, the combined transaction (R98, R107). -/
def pseudoReadAt (own : DeviceAddress) (i : Byte) (n : Nat) : List Instr :=
  [.start own false, .rx i, .start own true] ++ List.replicate n .tx ++ [.nack, .stop]

/-- `REQUEST L, A, B` (R107). -/
def pseudoRequest (own : DeviceAddress) (level : Level) (a b : Bool) : List Instr :=
  pseudoWrite own 0x01#8 [controlByte b a level]

/-- `TICKS n` (R107). -/
def pseudoTicks (n : Nat) : List Instr := List.replicate n .tick

/-- `ITER`, one whole iteration where `lpc = KICK` (R107, R180). -/
def pseudoIter : List Instr := List.replicate 8 .loop

end Sys2Proof.Machine
end

