-- ==== Sys2Proof/Safety.lean ====
section
/-! DEFINITION. The invariants of spec/10_state.md R41, R38, R39 and the terms in which claims about safe behaviour are stated. -/

namespace Sys2Proof.Machine

/-- The shapes of the heater bits: a later-stage relay is on only when every earlier one is (R41 item 6, R165 item 1). -/
def staged (h : HeaterMask) : Bool :=
  h = 0b000#3 || h = 0b001#3 || h = 0b011#3 || h = 0b111#3

/-- The heater bits of an output mask (R95). -/
def heaterBits (m : OutMask) : HeaterMask := m.extractLsb' 0 3

/-- How many heater relays a mask turns on. -/
def relaysOn (h : HeaterMask) : Nat :=
  (h.getLsbD 0).toNat + (h.getLsbD 1).toNat + (h.getLsbD 2).toNat

/-- What holds after reset and after every step: R41 items 1, 2, 4, 5, 6 (item 3 is the type of `ptr`), and between steps the mask is clear (R39), the watchdog is on (R38) and the reset-cause flag is clear (R37). -/
structure State.Inv (s : State) : Prop where
  tick_lt : s.tick.toNat < Config.period
  level_lt : s.level.toNat < Config.levelLimit
  idle_not_rejected : s.bst = .idle → s.rej = false
  ph_lt : s.ph.toNat < Config.period
  out_staged : staged (heaterBits s.out) = true
  mask_clear : s.irqMask = false
  watchdog_on : s.wdtEn = true
  cause_clear : s.wdrf = false

/-- L.DRIVE has a value to drive: either the interlock forces the heater bits off, or level and phase lie in the domain of PATTERN (R162, R163). -/
def State.canDrive (s : State) : Bool :=
  !s.en || inPatternDomain s.level.toNat s.ph.toNat

/-- The interlock: while the last sample said "ventilation inactive", what was driven has no heater relay on (R163, R22). -/
def interlocked (en : Bool) (m : OutMask) : Bool := en || heaterBits m = 0b000#3

/-- The row an operation is in a state: the operation its event performs there (R108, R109). -/
def rowIn (s : State) (i : Instr) : Instr := selectedRow s i.event

/-- The operations of the bus interrupt handler (R218). -/
def isBusEvent (i : Instr) : Bool :=
  match i.event with
  | .start _ _ | .rx _ | .tx | .nack | .stop => true
  | _ => false

/-- A restart (R250). -/
def isReset (i : Instr) : Bool :=
  match i with
  | .reset _ => true
  | _ => false

end Sys2Proof.Machine
end

