-- ==== Sys2Proof/Certificates/Slice0/Obligations.lean ====
section
/-! DEFINITION. The statements for the provers. Each equation `t = { s with … }` is also the operation's frame: every element it does not name, memory included, is as before. `obs` is the model's own record of the step's outputs (log 4), `draws` its counter of free values (log 3); no statement fixes a free value. -/

section TickSource
open Sys2Proof Sys2Proof.Machine

/-- 40 R120, for a counter out of range R124 (decision D31, log 20): TICK writes `tick` only, `(tick + 1) mod PERIOD`, from every state, and raises nothing. -/
def Obligations.TickAdvancesCounterModuloPeriod : Prop :=
  ∀ s : State, ∃ t : State, exec .tick s = .next t ∧
    t.tick.toNat = (s.tick.toNat + 1) % 10 ∧
    t = { s with tick := t.tick, obs := {} }

/-- Spec's inference in 40_tick_source.md R122, here from any counter in range and not only from reset: `n` TICK steps add `n` modulo 10 and touch nothing else. -/
def Obligations.TicksAccumulateModuloPeriod : Prop :=
  ∀ (n : Nat) (s : State), s.tick.toNat < 10 →
    ∃ t : State, execAll (pseudoTicks n) s = .next t ∧
      t.tick.toNat = (s.tick.toNat + n) % 10 ∧
      t = { s with tick := t.tick, obs := t.obs }

/-- 40_tick_source.md R124, its out-of-range clause being decision D31: one TICK brings every counter into `0..PERIOD-1`. -/
def Obligations.TickLeavesCounterInRange : Prop :=
  ∀ s t : State, exec .tick s = .next t → t.tick.toNat < 10

end TickSource

section BusInterface
open Sys2Proof Sys2Proof.Machine

/-- R131 to R134 for the generic event, in every `bst` (repeated START: decision D10; acknowledge: decision D9). -/
def Obligations.StartSelectsByAddressAndDirection : Prop :=
  ∀ (a : DeviceAddress) (d : Bool) (s : State), ∃ t : State, exec (.start a d) s = .next t ∧
    (a = Config.busAddr → d = false → t = { s with bst := .aw, obs := { ack := true } }) ∧
    (a = Config.busAddr → d = true → t = { s with bst := .ar, obs := { ack := true } }) ∧
    (a ≠ Config.busAddr → t = { s with bst := .idle, rej := false, obs := {} })

/-- R132, R133 for the rows START.W and START.R: they write `bst` only, from every protocol state (decision D10), and acknowledge (decision D9). -/
def Obligations.OwnAddressIsAcceptedInEveryState : Prop :=
  ∀ s : State,
    (∃ t : State, exec .startW s = .next t ∧ t.bst = .aw ∧ t.obs = { ack := true } ∧
      t = { s with bst := t.bst, obs := t.obs }) ∧
    (∃ t : State, exec .startR s = .next t ∧ t.bst = .ar ∧ t.obs = { ack := true } ∧
      t = { s with bst := t.bst, obs := t.obs })

/-- R134 for the row START.MISS, whose address differs from BUS_ADDR; with the block's own address the row stops (log 5). -/
def Obligations.ForeignAddressReturnsToIdle : Prop :=
  ∀ (a : DeviceAddress) (d : Bool) (s : State),
    (a ≠ Config.busAddr → ∃ t : State, exec (.startMiss a d) s = .next t ∧
      t.bst = .idle ∧ t.rej = false ∧ t.obs.ack = false ∧
      t = { s with bst := t.bst, rej := t.rej, obs := {} }) ∧
    (a = Config.busAddr → exec (.startMiss a d) s = .refused (.notSelected "START.MISS"))

/-- R136 with R92, R102: the index byte, as the row RX.INDEX and as the event RX; a rejected byte leaves `ptr` (decision D7) and is acknowledged (decision D9). -/
def Obligations.IndexByteSelectsOrRejects : Prop :=
  ∀ (v : Byte) (s : State), s.bst = .aw →
    ∃ t : State, exec (.rxIndex v) s = .next t ∧ exec (.rx v) s = .next t ∧
      t.bst = .ix ∧ t.obs.ack = true ∧
      (v.toNat < 2 → t.ptr.toNat = v.toNat ∧ t.rej = false ∧ t.obs.raised = none) ∧
      (2 ≤ v.toNat → t.ptr = s.ptr ∧ t.rej = true ∧
        t.obs.raised = some ⟨.indexOutOfRange, some v⟩) ∧
      t = { s with bst := t.bst, ptr := t.ptr, rej := t.rej, obs := t.obs }

/-- 41 R137 for the row RX.DATA and the event RX in `IX` (acknowledge: decision D9; discard after a rejection: D7; a store to STATUS: D13; the pointer wraps: conflict C4; logs 14 and 15): the byte is stored at the pointer, the other register keeps its value, the pointer wraps on; with `rej = 1` the byte is discarded. -/
def Obligations.DataByteStoresAtPointerAndWraps : Prop :=
  ∀ (b : Byte) (s : State), s.bst = .ix →
    ∃ t : State, exec (.rxData b) s = .next t ∧ exec (.rx b) s = .next t ∧
      t.obs = { ack := true } ∧
      (s.rej = false → t.reg s.ptr = b ∧ (∀ j : RegIndex, j ≠ s.ptr → t.reg j = s.reg j) ∧
        t.ptr.toNat = (s.ptr.toNat + 1) % 2) ∧
      (s.rej = true → (∀ j : RegIndex, t.reg j = s.reg j) ∧ t.ptr = s.ptr) ∧
      t = { s with status := t.status, control := t.control, ptr := t.ptr, obs := t.obs }

/-- 41 R138: outside `AW` and `IX` a byte changes nothing and is not acknowledged (in `AR`: decision D12). -/
def Obligations.ByteOutsideAWriteIsIgnored : Prop :=
  ∀ (b : Byte) (s : State), s.bst = .idle ∨ s.bst = .ar →
    ∃ t : State, exec (.rxIgnored b) s = .next t ∧ exec (.rx b) s = .next t ∧
      t.obs.ack = false ∧ t = { s with obs := {} }

/-- 41 R139: in `AR` with a selected index TX sends the register at the pointer, leaves both registers, and moves the pointer on by one (one advance per byte: decision D11). -/
def Obligations.TransmitSendsRegisterAtPointer : Prop :=
  ∀ s : State, s.bst = .ar → s.rej = false →
    ∃ t : State, exec .tx s = .next t ∧ t.obs = { sent := some (s.reg s.ptr) } ∧
      t.ptr.toNat = (s.ptr.toNat + 1) % 2 ∧
      t = { s with ptr := t.ptr, obs := t.obs }

/-- 41 R140, decision D8: after a rejected index TX sends some byte, which nothing fixes, reads no register and leaves the pointer. -/
def Obligations.TransmitAfterRejectionLeavesPointer : Prop :=
  ∀ s : State, s.bst = .ar → s.rej = true →
    ∃ t : State, exec .txRej s = .next t ∧ exec .tx s = .next t ∧
      (∃ b : Byte, t.obs = { sent := some b }) ∧
      t = { s with draws := t.draws, obs := t.obs }

/-- 41 R141, decision D12: a TX outside `AR` changes nothing; the byte is not determined by the block. -/
def Obligations.ForeignTransmitChangesNothing : Prop :=
  ∀ s : State, s.bst ≠ .ar →
    ∃ t : State, exec .txForeign s = .next t ∧ exec .tx s = .next t ∧
      (∃ b : Byte, t.obs = { sent := some b }) ∧
      t = { s with draws := t.draws, obs := t.obs }

/-- 41 R142 (no effect outside a read: decision D12; `rej` cleared on the way to `IDLE`: D7; log 15): NACK ends a read and keeps the pointer; in any other protocol state it changes nothing. -/
def Obligations.NackEndsOnlyARead : Prop :=
  ∀ s : State, ∃ t : State, exec .nack s = .next t ∧
    (s.bst = .ar → t = { s with bst := .idle, rej := false, obs := {} }) ∧
    (s.bst ≠ .ar → t = { s with obs := {} })

/-- 41 R143 (`rej` cleared, so that a rejection ends with its transaction: decision D7; log 15): STOP writes `bst` and `rej` only, from every protocol state. -/
def Obligations.StopEndsTransactionAndKeepsPointer : Prop :=
  ∀ s : State, ∃ t : State, exec .stop s = .next t ∧ t.bst = .idle ∧ t.rej = false ∧
    t = { s with bst := t.bst, rej := t.rej, obs := {} }

/-- 41 R144, decision D9: the responder acknowledges its own address and every byte received in `AW` or `IX`, and nothing else, over all operations. -/
def Obligations.AcknowledgesExactlyWhenAddressed : Prop :=
  ∀ (i : Instr) (s t : State), exec i s = .next t →
    (t.obs.ack = true ↔
      (∃ d : Bool, i.event = .start Config.busAddr d) ∨
      ((∃ b : Byte, i.event = .rx b) ∧ (s.bst = .aw ∨ s.bst = .ix)))

/-- Spec's inference in 41 R145: over all operations the pointer moves only by an in-range index byte, a stored data byte, a byte sent with a selected index, or a restart. -/
def Obligations.PointerMovesOnlyByTransfersAndReset : Prop :=
  ∀ (i : Instr) (s t : State), exec i s = .next t → t.ptr ≠ s.ptr →
    (∃ v : Byte, rowIn s i = .rxIndex v ∧ v.toNat < 2) ∨
    ((∃ b : Byte, rowIn s i = .rxData b) ∧ s.rej = false) ∨
    (rowIn s i = .tx ∧ s.bst = .ar ∧ s.rej = false) ∨
    isReset i = true

/-- Spec's inference in 30_encoding.md R96: a write transaction of any length stores byte `k` at index `(v + k) mod 2`, so the last two bytes stay; a rejected index (decision D7) stores nothing. -/
def Obligations.WriteTransactionStoresAlternately : Prop :=
  ∀ (v : Byte) (bs : List Byte) (s : State),
    ∃ t : State, execAll (pseudoWrite Config.busAddr v bs) s = .next t ∧
      (v.toNat < 2 →
        t.ptr.toNat = (v.toNat + bs.length) % 2 ∧
        (∀ (k : Nat) (h : k < bs.length), bs.length ≤ k + 2 →
          t.reg (BitVec.ofNat 1 (v.toNat + k)) = bs[k]) ∧
        (∀ j : RegIndex, (∀ k : Nat, k < bs.length → (v.toNat + k) % 2 ≠ j.toNat) →
          t.reg j = s.reg j)) ∧
      (2 ≤ v.toNat → t.ptr = s.ptr ∧ ∀ j : RegIndex, t.reg j = s.reg j) ∧
      t = { s with status := t.status, control := t.control, ptr := t.ptr,
                   bst := .idle, rej := false, obs := {} }

/-- 30 R97, one advance per byte being decision D11: a read of `n` bytes returns the registers in turn from the pointer on, changes no register, and leaves the pointer `n` further. -/
def Obligations.ReadTransactionReturnsRegistersInTurn : Prop :=
  ∀ (n : Nat) (s : State), s.rej = false →
    sentBytes (pseudoRead Config.busAddr n) s =
      some (none :: (List.range n).map (fun k => some (s.reg (BitVec.ofNat 1 (s.ptr.toNat + k))))
        ++ [none, none]) ∧
    ∃ t : State, execAll (pseudoRead Config.busAddr n) s = .next t ∧
      t.ptr.toNat = (s.ptr.toNat + n) % 2 ∧
      t = { s with bst := .idle, ptr := t.ptr, obs := {} }

/-- 30 R98, decisions D7, D8, D10: a combined transaction reads from the index it set; with a rejected index it moves no pointer and changes no register. -/
def Obligations.CombinedTransactionReadsFromIndex : Prop :=
  ∀ (v : Byte) (n : Nat) (s : State),
    (v.toNat < 2 →
      sentBytes (pseudoReadAt Config.busAddr v n) s =
        some ([none, none, none] ++
          (List.range n).map (fun k => some (s.reg (BitVec.ofNat 1 (v.toNat + k)))) ++
          [none, none])) ∧
    ∃ t : State, execAll (pseudoReadAt Config.busAddr v n) s = .next t ∧
      (v.toNat < 2 → t.ptr.toNat = (v.toNat + n) % 2) ∧
      (2 ≤ v.toNat → t.ptr = s.ptr) ∧
      t = { s with bst := .idle, rej := false, ptr := t.ptr, draws := t.draws, obs := {} }

end BusInterface

section RelayPattern
open Sys2Proof Sys2Proof.Machine

/-- R160, on the domain of R162 with `S` = 10: the three branches, and no value outside the domain. -/
def Obligations.PatternFollowsItsThreeBranches : Prop :=
  ∀ level phase : Nat, level ≤ 30 → phase < 10 →
    ∃ h : HeaterMask, pattern? level phase = some h ∧
      (20 < level → h.getLsbD 0 = true ∧ h.getLsbD 1 = true ∧
        (h.getLsbD 2 = true ↔ phase < level - 20)) ∧
      (10 < level → level ≤ 20 → h.getLsbD 0 = true ∧ h.getLsbD 2 = false ∧
        (h.getLsbD 1 = true ↔ phase < level - 10)) ∧
      (level ≤ 10 → h.getLsbD 1 = false ∧ h.getLsbD 2 = false ∧
        (h.getLsbD 0 = true ↔ phase < level))

/-- Spec's inference in 42 R161, for every stage size `S`: relay `k + 1` is on exactly while `phase < min (level - k*S) S`. -/
def Obligations.PatternHasClosedForm : Prop :=
  ∀ S level phase : Nat, level ≤ 3 * S → phase < S →
    ∀ k : Nat, k < 3 →
      ((relayPattern S level phase).getLsbD k = true ↔ phase < min (level - k * S) S)

/-- Spec's inference in 42 R165 item 4, for every stage size: over one period the relay-on phase units sum to the level. -/
def Obligations.PatternDutySumsToLevel : Prop :=
  ∀ S level : Nat, level ≤ 3 * S →
    ((List.range S).map fun phase => relaysOn (relayPattern S level phase)).sum = level

/-- 42 R165 items 2 and 3, for every stage size: more level never turns a relay off, a later phase never turns one on. -/
def Obligations.PatternMonotoneInLevelAndPhase : Prop :=
  ∀ S level level' phase phase' : Nat, level ≤ level' → level' ≤ 3 * S → phase' ≤ phase → phase < S →
    relaysOn (relayPattern S level phase) ≤ relaysOn (relayPattern S level' phase')

/-- 42 R165 items 1 and 5, for every stage size: the relays are staged, and inside one period at most one relay changes. -/
def Obligations.PatternPulsesAtMostOneRelay : Prop :=
  ∀ S level : Nat, level ≤ 3 * S →
    (∀ phase : Nat, phase < S → staged (relayPattern S level phase) = true) ∧
    ∃ k : Nat, ∀ p q j : Nat, p < S → q < S →
      (relayPattern S level p).getLsbD j ≠ (relayPattern S level q).getLsbD j → j = k

/-- PATTERN as an operation on an argument word (30 R110, decision D33; that it is a step of its own is the model's choice, log 7): in the domain it answers the closed form of 42 R161 and writes no state, outside it stops. -/
def Obligations.PatternWordEvaluates : Prop :=
  ∀ (level : Level) (phase : BitVec 4) (s : State),
    (level.toNat ≤ 30 → phase.toNat ≤ 9 →
      ∃ h : HeaterMask, exec (.pattern level phase) s = .next { s with obs := { heater := some h } } ∧
        ∀ k : Nat, k < 3 → (h.getLsbD k = true ↔ phase.toNat < min (level.toNat - k * 10) 10)) ∧
    (30 < level.toNat ∨ 9 < phase.toNat → exec (.pattern level phase) s = .refused .outsideDomain)

/-- OUTMASK as an operation on an argument word (42 R163, R164; bit order: decision D5; a step of its own: log 7): auxiliary bits pass through, the heater bits follow PATTERN with the ventilation active and are off without it. -/
def Obligations.OutmaskWordAppliesInterlock : Prop :=
  ∀ (en auxB auxA : Bool) (level : Level) (phase : BitVec 4) (s : State),
    (level.toNat ≤ 30 → phase.toNat ≤ 9 →
      ∃ m : OutMask,
        exec (.outmask en auxB auxA level phase) s = .next { s with obs := { mask := some m } } ∧
        m.getLsbD 4 = auxB ∧ m.getLsbD 3 = auxA ∧
        (en = false → heaterBits m = 0b000#3) ∧
        (en = true → pattern? level.toNat phase.toNat = some (heaterBits m))) ∧
    (en = true → 30 < level.toNat ∨ 9 < phase.toNat →
      exec (.outmask en auxB auxA level phase) s = .refused .outsideDomain)

end RelayPattern

section ControlSequencer
open Sys2Proof Sys2Proof.Machine

/-- 43 R181, R189 (the cut into steps: decision D17; the pause is time only: D25): L.KICK and L.DELAY change `lpc` and nothing else. -/
def Obligations.KickAndDelayOnlyAdvance : Prop :=
  ∀ s : State,
    (s.lpc = .kick → ∃ t : State, exec .lKick s = .next t ∧ exec .loop s = .next t ∧
      t = { s with lpc := .snap, obs := {} }) ∧
    (s.lpc = .delay → ∃ t : State, exec .lDelay s = .next t ∧ exec .loop s = .next t ∧
      t = { s with lpc := .kick, obs := {} })

/-- 43 R182, R192 (the cut into steps: decision D17): L.SNAP accepts a CONTROL byte whose level field is below 31, as level and auxiliary flags, does not write CONTROL, and leaves interrupts unmasked. -/
def Obligations.SnapshotAcceptsValidRequest : Prop :=
  ∀ s : State, s.lpc = .snap → s.control.toNat % 64 < 31 →
    ∃ t : State, exec .lSnap s = .next t ∧ exec .loop s = .next t ∧
      t.level.toNat = s.control.toNat % 64 ∧
      t.auxA.toNat = s.control.toNat / 64 % 2 ∧
      t.auxB.toNat = s.control.toNat / 128 ∧
      t = { s with level := t.level, auxA := t.auxA, auxB := t.auxB, irqMask := false,
                   lpc := .sample, obs := {} }

/-- 43 R182, R183, 60 R211 (echo of the whole byte: decision D16; the cut into steps: D17): L.SNAP overwrites an invalid CONTROL byte with the last-known-good byte and applies nothing of it. -/
def Obligations.SnapshotEchoesLastGoodRequest : Prop :=
  ∀ s : State, s.lpc = .snap → 31 ≤ s.control.toNat % 64 →
    ∃ t : State, exec .lSnap s = .next t ∧ exec .loop s = .next t ∧
      t.control.toNat = 128 * s.auxB.toNat + 64 * s.auxA.toNat + s.level.toNat ∧
      t = { s with control := t.control, irqMask := false, lpc := .sample,
                   obs := { raised := some ⟨.invalidRequest, some s.control⟩ } }

/-- Spec's inference at the end of 43 R183: the next L.SNAP, absent a new write, accepts the echo and leaves the local state as it was. -/
def Obligations.EchoIsAcceptedUnchanged : Prop :=
  ∀ s t : State, s.lpc = .snap → s.level.toNat < 31 → 31 ≤ s.control.toNat % 64 →
    exec .lSnap s = .next t →
    ∃ u : State, exec .lSnap { t with lpc := .snap } = .next u ∧
      u.level = s.level ∧ u.auxA = s.auxA ∧ u.auxB = s.auxB ∧ u.control = t.control ∧
      u.obs.raised = none

/-- 43 R184, R185 (the cut into steps: decision D17; no debouncing: D23): L.SAMPLE takes the inverse of the line, L.STRD takes STATUS, and neither changes anything else but `lpc`. -/
def Obligations.SampleAndStatusReadLatchTheirInput : Prop :=
  ∀ s : State,
    (s.lpc = .sample → ∃ t : State, exec .lSample s = .next t ∧ exec .loop s = .next t ∧
      (t.en = true ↔ s.ventN = false) ∧ t = { s with en := t.en, lpc := .strd, obs := {} }) ∧
    (s.lpc = .strd → ∃ t : State, exec .lStrd s = .next t ∧ exec .loop s = .next t ∧
      t.stmp = s.status ∧ t = { s with stmp := t.stmp, lpc := .stwr, obs := {} })

/-- 43 R186, 10 R22 (the cut into steps: decision D17): L.STWR writes STATUS with HDIS the inverse of `en` and bits 7:1 as L.STRD saw them, and leaves CONTROL. -/
def Obligations.StatusWriteSetsHeaterDisabledFlag : Prop :=
  ∀ s : State, s.lpc = .stwr →
    ∃ t : State, exec .lStwr s = .next t ∧ exec .loop s = .next t ∧
      (statusHdis t.status = true ↔ s.en = false) ∧
      t.status.toNat / 2 = s.stmp.toNat / 2 ∧
      t = { s with status := t.status, lpc := .phase, obs := {} }

/-- 43 R187 (the cut into steps: decision D17; `tick` unread while disabled: D30): L.PHASE takes the counter with the ventilation active and 0 without it. -/
def Obligations.PhaseStepTakesTheCounterOrZero : Prop :=
  ∀ s : State, s.lpc = .phase →
    ∃ t : State, exec .lPhase s = .next t ∧ exec .loop s = .next t ∧
      (s.en = true → t.ph = s.tick) ∧ (s.en = false → t.ph = 0#8) ∧
      t = { s with ph := t.ph, lpc := .drive, obs := {} }

/-- 43 R188, 42 R163 (bit order: decision D5; the cut into steps: D17): L.DRIVE writes all five bits of OUT from the local state, keeps `level` even when the interlock forces the heater bits off, and writes nothing else but `lpc`. -/
def Obligations.DriveWritesOutputMask : Prop :=
  ∀ s : State, s.lpc = .drive → (s.en = false ∨ s.level.toNat ≤ 30 ∧ s.ph.toNat ≤ 9) →
    ∃ t : State, exec .lDrive s = .next t ∧ exec .loop s = .next t ∧
      t.out.getLsbD 4 = s.auxB ∧ t.out.getLsbD 3 = s.auxA ∧
      (∀ k : Nat, k < 3 → (t.out.getLsbD k = true ↔
        s.en = true ∧ s.ph.toNat < min (s.level.toNat - k * 10) 10)) ∧
      t = { s with out := t.out, lpc := .delay, obs := {} }

/-- 42 R162 (no value outside the domain: log 7): with the ventilation active and level or phase out of range, which no reachable state has, L.DRIVE stops. -/
def Obligations.DriveStopsOutsideTheDomain : Prop :=
  ∀ s : State, s.lpc = .drive → s.en = true → (30 < s.level.toNat ∨ 9 < s.ph.toNat) →
    exec .lDrive s = .refused .outsideDomain ∧ exec .loop s = .refused .outsideDomain

/-- 43 R190, 10 R34 (the cut into steps: decision D17): LOOP always completes where L.DRIVE has a value to drive, and over all operations `lpc` moves only to the next name of the order by LOOP, or to KICK by a restart. -/
def Obligations.SequencerFollowsItsFixedOrder : Prop :=
  (∀ s : State, (s.lpc = .drive → s.canDrive = true) →
    ∃ t : State, exec .loop s = .next t ∧ t.lpc = nextStep s.lpc) ∧
  (∀ (i : Instr) (s t : State), exec i s = .next t →
    (i.event = .loop ∧ t.lpc = nextStep s.lpc) ∨ (isReset i = true ∧ t.lpc = .kick) ∨
      (i.event ≠ .loop ∧ t.lpc = s.lpc))

/-- Spec's inference in 43 R191: what the eight operations of one iteration achieve when no other agent steps inside it, from every state that meets the invariant. -/
def Obligations.IterationAchievesItsSummary : Prop :=
  ∀ s : State, s.Inv → s.lpc = .kick →
    ∃ t : State, execAll pseudoIter s = .next t ∧
      (s.control.toNat % 64 < 31 →
        t.level.toNat = s.control.toNat % 64 ∧ t.auxA.toNat = s.control.toNat / 64 % 2 ∧
        t.auxB.toNat = s.control.toNat / 128 ∧ t.control = s.control) ∧
      (31 ≤ s.control.toNat % 64 →
        t.level = s.level ∧ t.auxA = s.auxA ∧ t.auxB = s.auxB ∧
        t.control.toNat = 128 * s.auxB.toNat + 64 * s.auxA.toNat + s.level.toNat) ∧
      t.status = (s.status &&& 0xFE#8) ||| (BitVec.ofBool s.ventN).setWidth 8 ∧
      outmask? t.level.toNat s.tick.toNat t.auxA t.auxB (!s.ventN) = some t.out ∧
      t = { s with status := t.status, control := t.control, level := t.level, auxA := t.auxA,
                   auxB := t.auxB, en := !s.ventN, stmp := s.status,
                   ph := if s.ventN then 0#8 else s.tick, out := t.out, lpc := .kick, obs := {} }

end ControlSequencer

section EnvironmentEvents
open Sys2Proof Sys2Proof.Machine

/-- 70 R257 for the event; for the whole iteration the spec's inferences in 43 R191 and R193 (the cut into steps: decision D17; bit order: D5; phase 0 without the ventilation: D30; logs 12 and 18): VENT moves the line and nothing of the block; over the next whole iteration `en`, HDIS and OUT follow the line's new level, which 0 makes "heater permitted" and 1 "heater forced off". -/
def Obligations.VentIsFollowedByTheNextIteration : Prop :=
  ∀ (v : Bool) (s : State),
    (∃ t : State, exec (.vent v) s = .next t ∧ t.ventN = v ∧
      t = { s with ventN := t.ventN, obs := {} }) ∧
    (s.Inv → s.lpc = .kick →
      ∃ u : State, execAll (.vent v :: pseudoIter) s = .next u ∧ u.ventN = v ∧
        (u.en = true ↔ v = false) ∧ (statusHdis u.status = true ↔ v = true) ∧
        (v = false → pattern? u.level.toNat s.tick.toNat = some (heaterBits u.out)) ∧
        (v = true → heaterBits u.out = 0b000#3))

/-- 70 R250 to R252 (values of the pointer, the locals, `lpc` and OUT: decisions D6, D7, D15, D17, D20; LivenessLoss as the step's output: log 4): a restart from any state leaves every element of the block at its reset value, with the cause recorded in STATUS; the enable line stays. -/
def Obligations.ResetLeavesEveryElementAtItsValue : Prop :=
  ∀ (c : Bool) (s : State), ∃ t : State, exec (.reset c) s = .next t ∧
    t.status = (if s.wdrf = true ∨ c = true then 0x00#8 else 0x02#8) ∧
    t = { status := t.status, control := 0x00#8, bst := .idle, ptr := 0#1, rej := false,
          tick := 0#8, level := 0#6, auxA := false, auxB := false, en := false, stmp := 0#8,
          ph := 0#8, lpc := .kick, out := 0b00000#5, ventN := s.ventN, wdrf := false,
          wdtEn := true, irqMask := false, trace := s.trace, draws := s.draws,
          obs := { raised := if c then some ⟨.livenessLoss, none⟩ else none } }

/-- R253: WDOK is the inverse of the reset-cause flag, HDIS is 0, and the flag is consumed, so that a later restart for another cause reports WDOK = 1. -/
def Obligations.RestartCauseIsRecordedOnce : Prop :=
  ∀ s : State, s.wdrf = false →
    ∃ t u : State, exec (.reset true) s = .next t ∧ exec (.reset false) t = .next u ∧
      t.status = 0x00#8 ∧ t.wdrf = false ∧ u.status = 0x02#8 ∧ u.wdrf = false ∧
      (∃ v : State, exec (.reset false) s = .next v ∧ v.status = 0x02#8 ∧ v.wdrf = false)

end EnvironmentEvents

section WholeMachine
open Sys2Proof Sys2Proof.Machine

/-- 10 R41, R37, R38, R39 (items of R41 are the spec's inferences): every step from a state that meets the invariant ends in one that meets it. -/
def Obligations.EveryStepKeepsTheInvariant : Prop :=
  ∀ s t : State, s.Inv → step s = .next t → t.Inv

/-- 10 R41: the state after reset meets the invariant. -/
def Obligations.ResetStateMeetsTheInvariant : Prop := State.reset.Inv

/-- 93 ("every operation is enabled in every state"), 43 R190: in a state that meets the invariant every decoded word completes, and so does a step with no event waiting. -/
def Obligations.EveryDecodedWordCompletes : Prop :=
  ∀ s : State, s.Inv →
    (∀ (w : TraceWord) (i : Instr), decode w = .ok i → ∃ t : State, exec i s = .next t) ∧
    (s.trace = [] → ∃ t : State, step s = .next t)

/-- 30 R108, R109: an event does what the row it selects in that state does, and the row it selects is never one that stops for want of being selected. -/
def Obligations.EventsRunTheSelectedRow : Prop :=
  ∀ (i : Instr) (s : State), i.event = i →
    exec i s = exec (selectedRow s i) s ∧
    ∀ row : String, exec (selectedRow s i) s ≠ .refused (.notSelected row)

/-- 30 R108, R109, the opcode table's "when" (log 5): a row that shares its word with an event stops in a state that does not select it. -/
def Obligations.UnselectedRowsStop : Prop :=
  ∀ (i : Instr) (s : State), i.event ≠ i → rowIn s i ≠ i →
    ∃ row : String, exec i s = .refused (.notSelected row)

/-- 10 R42 and R37 to R39: over all operations, each element of the state changes only by the operations that own it. -/
def Obligations.ElementsChangeOnlyByTheirOwners : Prop :=
  ∀ (i : Instr) (s t : State), exec i s = .next t → isReset i = false →
    (t.status ≠ s.status →
      (∃ b : Byte, rowIn s i = .rxData b) ∧ s.ptr = 0#1 ∨ rowIn s i = .lStwr) ∧
    (t.control ≠ s.control →
      (∃ b : Byte, rowIn s i = .rxData b) ∧ s.ptr = 1#1 ∨
      rowIn s i = .lSnap ∧ 31 ≤ s.control.toNat % 64) ∧
    (t.bst ≠ s.bst ∨ t.ptr ≠ s.ptr ∨ t.rej ≠ s.rej → isBusEvent i = true) ∧
    (t.tick ≠ s.tick → i = .tick) ∧
    (t.level ≠ s.level ∨ t.auxA ≠ s.auxA ∨ t.auxB ≠ s.auxB → rowIn s i = .lSnap) ∧
    (t.en ≠ s.en → rowIn s i = .lSample) ∧
    (t.stmp ≠ s.stmp → rowIn s i = .lStrd) ∧
    (t.ph ≠ s.ph → rowIn s i = .lPhase) ∧
    (t.lpc ≠ s.lpc → i.event = .loop) ∧
    (t.out ≠ s.out → rowIn s i = .lDrive) ∧
    (t.ventN ≠ s.ventN → ∃ v : Bool, i = .vent v) ∧
    (t.irqMask ≠ s.irqMask → rowIn s i = .lSnap) ∧
    t.wdrf = s.wdrf ∧ t.wdtEn = s.wdtEn ∧ t.trace = s.trace

/-- 10 R23, 70 R267 (latch until the next boot: decision D14; bus writes reach STATUS: D13): WDOK changes only by a restart, by a bus write to index 0, or by L.STWR writing back an older byte. -/
def Obligations.WatchdogFlagIsLatched : Prop :=
  ∀ (i : Instr) (s t : State), exec i s = .next t →
    statusWdok t.status ≠ statusWdok s.status →
    isReset i = true ∨
    (∃ b : Byte, rowIn s i = .rxData b ∧ s.ptr = 0#1 ∧ s.rej = false ∧
      statusWdok b = statusWdok t.status) ∨
    (rowIn s i = .lStwr ∧ statusWdok s.stmp = statusWdok t.status)

/-- Spec's inference in 60 R222: the two interrupt handlers share no state, so their order cannot be observed (the outputs of the last step apart). -/
def Obligations.TickAndBusHandlersCommute : Prop :=
  ∀ (i : Instr) (s t : State), isBusEvent i = true → exec i s = .next t →
    ∃ u v : State, execAll [.tick, i] s = .next u ∧ execAll [i, .tick] s = .next v ∧
      u.obs = t.obs ∧ v = { u with obs := v.obs }

/-- Spec's inference in 70 R261: a byte written to STATUS between L.STRD and L.STWR is lost; the update writes back the older byte with the new HDIS. -/
def Obligations.StatusWriteBetweenReadAndWriteIsLost : Prop :=
  ∀ (b : Byte) (s : State), s.lpc = .strd → s.bst = .ix → s.rej = false → s.ptr = 0#1 →
    ∃ u t : State, execAll [.loop, .rx b] s = .next u ∧ u.status = b ∧
      exec .loop u = .next t ∧
      t.status.toNat / 2 = s.status.toNat / 2 ∧ (statusHdis t.status = true ↔ s.en = false)

/-- Spec's inference in 70 R264: of two CONTROL writes between two L.SNAP steps only the second has an effect. -/
def Obligations.SecondWriteCoalescesWithFirst : Prop :=
  ∀ (b b' : Byte) (s : State), s.lpc = .snap →
    execAll (pseudoWrite Config.busAddr 0x01#8 [b] ++ pseudoWrite Config.busAddr 0x01#8 [b'] ++ [.loop]) s =
      execAll (pseudoWrite Config.busAddr 0x01#8 [b'] ++ [.loop]) s

/-- Spec's inference in 70 R265: a TICK between L.PHASE and L.DRIVE does not reach the mask of this iteration. -/
def Obligations.OutputLagsTheTick : Prop :=
  ∀ s : State, s.Inv → s.lpc = .phase →
    ∃ t u : State, execAll [.loop, .tick, .loop] s = .next t ∧ execAll [.loop, .loop] s = .next u ∧
      t = { u with tick := t.tick } ∧ t.tick.toNat = (s.tick.toNat + 1) % 10 ∧
      outmask? s.level.toNat s.tick.toNat s.auxA s.auxB s.en = some t.out

/-- 43 R193, 41 R137, 20 R65: a CONTROL write moves neither the local state nor OUT, and is the request L.SNAP then validates. -/
def Obligations.ControlWriteWaitsForTheSnapshot : Prop :=
  ∀ (b : Byte) (s : State), s.lpc = .snap → b.toNat % 64 < 31 →
    ∃ u t : State, execAll (pseudoWrite Config.busAddr 0x01#8 [b]) s = .next u ∧
      u.control = b ∧ u.level = s.level ∧ u.auxA = s.auxA ∧ u.auxB = s.auxB ∧ u.out = s.out ∧
      exec .loop u = .next t ∧ t.level.toNat = b.toNat % 64 ∧ t.control = b ∧ t.out = s.out

end WholeMachine

section Words
open Sys2Proof Sys2Proof.Machine

/-- 30 R99, R100, R110 (the words are the spec's own: decisions D2, D33): decoding the word of any well-formed operation gives the event it is a case of, with every operand. -/
def Obligations.DecodeOfEncodeGivesTheEvent : Prop :=
  ∀ i : Instr, i.wellFormed = true → decode (encode i) = .ok i.event

/-- 30 R100, R104, R110 (decisions D2, D33): what the decoder reads from a word is well-formed, is its own event, and has that word as its encoding; so each word has one meaning. -/
def Obligations.EncodeOfDecodeGivesTheWord : Prop :=
  ∀ (w : TraceWord) (i : Instr), decode w = .ok i →
    encode i = w ∧ i.wellFormed = true ∧ i.event = i

/-- 30 R104, decision D2: exactly the kinds 0x9 to 0xF are unknown, exactly the nonzero must-be-zero payloads of the other kinds are refused, and every other event word decodes. -/
def Obligations.ReservedEventWordsAreRefused : Prop :=
  ∀ w : EventWord,
    (decode (.event w) = .error .unknownKind ↔ 0x900 ≤ w.toNat) ∧
    (decode (.event w) = .error .payloadNotZero ↔
      w.toNat % 256 ≠ 0 ∧ (w.toNat / 256 = 0 ∨ w.toNat / 256 = 3 ∨ w.toNat / 256 = 4 ∨
        w.toNat / 256 = 5 ∨ w.toNat / 256 = 6) ∨
      2 ≤ w.toNat % 256 ∧ (w.toNat / 256 = 7 ∨ w.toNat / 256 = 8)) ∧
    ((∃ i : Instr, decode (.event w) = .ok i) ∨ decode (.event w) = .error .unknownKind ∨
      decode (.event w) = .error .payloadNotZero)

/-- Words written out from the encodings of 30 R100, R106 and R110 (decisions D2, D33): one of each kind, and an argument word of each function. -/
def Obligations.WordsOfTheTableDecode : Prop :=
  decode (.event 0b000000000000#12) = .ok .tick ∧
  decode (.event 0b000100100001#12) = .ok (.start 0x10#7 true) ∧
  decode (.event 0b001001000101#12) = .ok (.rx 0x45#8) ∧
  decode (.event 0b001100000000#12) = .ok .tx ∧
  decode (.event 0b010000000000#12) = .ok .nack ∧
  decode (.event 0b010100000000#12) = .ok .stop ∧
  decode (.event 0b011000000000#12) = .ok .loop ∧
  decode (.event 0b011100000001#12) = .ok (.vent true) ∧
  decode (.event 0b100000000001#12) = .ok (.reset true) ∧
  decode (.pattern 0b0011010010#10) = .ok (.pattern 13#6 2#4) ∧
  decode (.outmask 0b1010011010010#13) = .ok (.outmask true false true 13#6 2#4)

/-- 20 R66, R71, and the model's trace (log 1): a step takes the oldest waiting word and is the execution of what it decodes to, or the refusal of a word that decodes to nothing; with none waiting it is LOOP. -/
def Obligations.StepRunsTheDecodedInstruction : Prop :=
  ∀ s : State,
    (∀ (w : TraceWord) (ws : List TraceWord) (i : Instr), s.trace = w :: ws → decode w = .ok i →
      step s = exec i { s with trace := ws }) ∧
    (∀ (w : TraceWord) (ws : List TraceWord) (e : DecodeError), s.trace = w :: ws →
      decode w = .error e → step s = .refused (.badWord e)) ∧
    (s.trace = [] → step s = exec .loop s)

/-- 30 R99, R106, 20 R71 and the model's trace (log 1): running the words of a list of well-formed operations is executing the operations one after another. -/
def Obligations.RunOfWordsExecutesTheirEvents : Prop :=
  ∀ (is : List Instr) (s t : State), (∀ i ∈ is, i.wellFormed = true) → s.trace = [] →
    execAll (is.map Instr.event) s = .next t →
    Sys2Proof.core.run is.length { s with trace := is.map encode } = .next t

end Words

section LocalFlags
open Sys2Proof Sys2Proof.Machine

/-- R26, R27: over all operations but a restart, a local auxiliary flag changes only to the bit 6 or bit 7 of a CONTROL byte whose level is valid. -/
def Obligations.AuxiliaryRequestsNeedAValidLevel : Prop :=
  ∀ (i : Instr) (s t : State), exec i s = .next t → isReset i = false →
    (t.auxA ≠ s.auxA → t.auxA = s.control.getLsbD 6 ∧ s.control.toNat % 64 < 31) ∧
    (t.auxB ≠ s.auxB → t.auxB = s.control.getLsbD 7 ∧ s.control.toNat % 64 < 31)

end LocalFlags

section CounterOwner
open Sys2Proof Sys2Proof.Machine

/-- R120 on the counter's own range: TICK adds one modulo PERIOD and writes `tick` only, and it is the only mutator; a restart initialises the counter. -/
def Obligations.TickIsTheOnlyMutatorOfTheCounter : Prop :=
  ∀ s : State, s.tick.toNat < 10 →
    (∃ t : State, exec .tick s = .next t ∧ t.tick.toNat = (s.tick.toNat + 1) % 10 ∧
      t = { s with tick := t.tick, obs := t.obs } ∧ t.obs.raised = none) ∧
    ∀ (i : Instr) (t : State), exec i s = .next t → t.tick ≠ s.tick → i = .tick ∨ isReset i = true

end CounterOwner
end

