-- ==== Sys2Proof/Laws/Encoding.lean ====
section
/-! SUPPORT. The fields of the words the encoder builds, read back as the decoder reads them. -/

namespace Sys2Proof

/-- An append of bit fields as a number. -/
theorem toNat_append_add {m n : Nat} (x : BitVec m) (y : BitVec n) :
    (x ++ y).toNat = x.toNat * 2 ^ n + y.toNat := by
  rw [BitVec.toNat_append, ← Nat.shiftLeft_add_eq_or_of_lt y.isLt, Nat.shiftLeft_eq]

/-- An event word as a number (R99). -/
theorem eventWord_toNat (k : BitVec 4) (p : Byte) :
    (eventWord k p).toNat = k.toNat * 256 + p.toNat := toNat_append_add k p

/-- The two fields of an event word (R99). -/
theorem eventWord_fields (k : BitVec 4) (p : Byte) :
    (eventWord k p).extractLsb' 8 4 = k ∧ (eventWord k p).extractLsb' 0 8 = p := by
  have h := eventWord_toNat k p
  have hk := k.isLt
  have hp := p.isLt
  constructor <;> apply BitVec.eq_of_toNat_eq <;>
    rw [BitVec.extractLsb'_toNat, h, Nat.shiftRight_eq_div_pow] <;> omega

/-- The two fields of an address byte (R91). -/
theorem addressByte_fields (a : DeviceAddress) (d : Bool) :
    (addressByte a d).extractLsb' 1 7 = a ∧ (addressByte a d).getLsbD 0 = d := by
  revert a d; decide

/-- The two fields of a one-bit payload (R100). -/
theorem bitByte_fields (b : Bool) :
    (bitByte b).extractLsb' 1 7 = 0#7 ∧ (bitByte b).getLsbD 0 = b := by
  revert b; decide

/-- The argument word of PATTERN as a number (R110). -/
theorem patternWord_toNat (l : Level) (p : BitVec 4) :
    (patternWord l p).toNat = l.toNat * 16 + p.toNat := toNat_append_add l p

/-- The two fields of the argument word of PATTERN (R110). -/
theorem patternWord_fields (l : Level) (p : BitVec 4) :
    (patternWord l p).extractLsb' 4 6 = l ∧ (patternWord l p).extractLsb' 0 4 = p := by
  have h := patternWord_toNat l p
  have hl := l.isLt
  have hp := p.isLt
  constructor <;> apply BitVec.eq_of_toNat_eq <;>
    rw [BitVec.extractLsb'_toNat, h, Nat.shiftRight_eq_div_pow] <;> omega

/-- The argument word of OUTMASK as a number (R110). -/
theorem outmaskWord_toNat (e b a : Bool) (l : Level) (p : BitVec 4) :
    (outmaskWord e b a l p).toNat =
      (((e.toNat * 2 + b.toNat) * 2 + a.toNat) * 64 + l.toNat) * 16 + p.toNat := by
  unfold outmaskWord
  rw [toNat_append_add, toNat_append_add, toNat_append_add, toNat_append_add, BitVec.toNat_ofBool,
    BitVec.toNat_ofBool, BitVec.toNat_ofBool]
  rfl

/-- The five fields of the argument word of OUTMASK (R110). -/
theorem outmaskWord_fields (e b a : Bool) (l : Level) (p : BitVec 4) :
    (outmaskWord e b a l p).extractLsb' 4 6 = l ∧ (outmaskWord e b a l p).extractLsb' 0 4 = p ∧
      (outmaskWord e b a l p).getLsbD 12 = e ∧ (outmaskWord e b a l p).getLsbD 11 = b ∧
      (outmaskWord e b a l p).getLsbD 10 = a := by
  have h := outmaskWord_toNat e b a l p
  have hl := l.isLt
  have hp := p.isLt
  have he := Bool.toNat_le e
  have hb := Bool.toNat_le b
  have ha := Bool.toNat_le a
  have bit : ∀ i : Nat, (outmaskWord e b a l p).getLsbD i =
      decide ((outmaskWord e b a l p).toNat / 2 ^ i % 2 = 1) := fun i => by
    rw [← Nat.testBit_eq_decide_div_mod_eq, BitVec.testBit_toNat]
  have bool : ∀ (x : Bool) (n : Nat), n = x.toNat → decide (n = 1) = x := by
    rintro x n rfl; cases x <;> rfl
  refine ⟨?_, ?_, ?_, ?_, ?_⟩
  · apply BitVec.eq_of_toNat_eq
    rw [BitVec.extractLsb'_toNat, h, Nat.shiftRight_eq_div_pow]; omega
  · apply BitVec.eq_of_toNat_eq
    rw [BitVec.extractLsb'_toNat, h, Nat.shiftRight_eq_div_pow]; omega
  · rw [bit, h]; apply bool; omega
  · rw [bit, h]; apply bool; omega
  · rw [bit, h]; apply bool; omega

end Sys2Proof
end

