-- ==== Sys2Proof/Laws/State.lean ====
section
/-! SUPPORT. The small lemmas of the state updates: for each shared update, what it leaves in each field, so that later proofs unfold no record update. -/

namespace Sys2Proof.Machine

/-! The step's outputs. -/

@[simp] theorem observe_status (s : State) (o : Observation) : (s.observe o).status = s.status := rfl
@[simp] theorem observe_control (s : State) (o : Observation) : (s.observe o).control = s.control := rfl
@[simp] theorem observe_bst (s : State) (o : Observation) : (s.observe o).bst = s.bst := rfl
@[simp] theorem observe_ptr (s : State) (o : Observation) : (s.observe o).ptr = s.ptr := rfl
@[simp] theorem observe_rej (s : State) (o : Observation) : (s.observe o).rej = s.rej := rfl
@[simp] theorem observe_tick (s : State) (o : Observation) : (s.observe o).tick = s.tick := rfl
@[simp] theorem observe_level (s : State) (o : Observation) : (s.observe o).level = s.level := rfl
@[simp] theorem observe_auxA (s : State) (o : Observation) : (s.observe o).auxA = s.auxA := rfl
@[simp] theorem observe_auxB (s : State) (o : Observation) : (s.observe o).auxB = s.auxB := rfl
@[simp] theorem observe_en (s : State) (o : Observation) : (s.observe o).en = s.en := rfl
@[simp] theorem observe_stmp (s : State) (o : Observation) : (s.observe o).stmp = s.stmp := rfl
@[simp] theorem observe_ph (s : State) (o : Observation) : (s.observe o).ph = s.ph := rfl
@[simp] theorem observe_lpc (s : State) (o : Observation) : (s.observe o).lpc = s.lpc := rfl
@[simp] theorem observe_out (s : State) (o : Observation) : (s.observe o).out = s.out := rfl
@[simp] theorem observe_ventN (s : State) (o : Observation) : (s.observe o).ventN = s.ventN := rfl
@[simp] theorem observe_wdrf (s : State) (o : Observation) : (s.observe o).wdrf = s.wdrf := rfl
@[simp] theorem observe_wdtEn (s : State) (o : Observation) : (s.observe o).wdtEn = s.wdtEn := rfl
@[simp] theorem observe_irqMask (s : State) (o : Observation) : (s.observe o).irqMask = s.irqMask := rfl
@[simp] theorem observe_trace (s : State) (o : Observation) : (s.observe o).trace = s.trace := rfl
@[simp] theorem observe_draws (s : State) (o : Observation) : (s.observe o).draws = s.draws := rfl
@[simp] theorem observe_obs (s : State) (o : Observation) : (s.observe o).obs = o := rfl

/-! A step with no output. -/

@[simp] theorem quiet_status (s : State) : (s.quiet).status = s.status := rfl
@[simp] theorem quiet_control (s : State) : (s.quiet).control = s.control := rfl
@[simp] theorem quiet_bst (s : State) : (s.quiet).bst = s.bst := rfl
@[simp] theorem quiet_ptr (s : State) : (s.quiet).ptr = s.ptr := rfl
@[simp] theorem quiet_rej (s : State) : (s.quiet).rej = s.rej := rfl
@[simp] theorem quiet_tick (s : State) : (s.quiet).tick = s.tick := rfl
@[simp] theorem quiet_level (s : State) : (s.quiet).level = s.level := rfl
@[simp] theorem quiet_auxA (s : State) : (s.quiet).auxA = s.auxA := rfl
@[simp] theorem quiet_auxB (s : State) : (s.quiet).auxB = s.auxB := rfl
@[simp] theorem quiet_en (s : State) : (s.quiet).en = s.en := rfl
@[simp] theorem quiet_stmp (s : State) : (s.quiet).stmp = s.stmp := rfl
@[simp] theorem quiet_ph (s : State) : (s.quiet).ph = s.ph := rfl
@[simp] theorem quiet_lpc (s : State) : (s.quiet).lpc = s.lpc := rfl
@[simp] theorem quiet_out (s : State) : (s.quiet).out = s.out := rfl
@[simp] theorem quiet_ventN (s : State) : (s.quiet).ventN = s.ventN := rfl
@[simp] theorem quiet_wdrf (s : State) : (s.quiet).wdrf = s.wdrf := rfl
@[simp] theorem quiet_wdtEn (s : State) : (s.quiet).wdtEn = s.wdtEn := rfl
@[simp] theorem quiet_irqMask (s : State) : (s.quiet).irqMask = s.irqMask := rfl
@[simp] theorem quiet_trace (s : State) : (s.quiet).trace = s.trace := rfl
@[simp] theorem quiet_draws (s : State) : (s.quiet).draws = s.draws := rfl
@[simp] theorem quiet_obs (s : State) : (s.quiet).obs = {} := rfl

/-! The index pointer moves on (R29). -/

@[simp] theorem advancePtr_status (s : State) : (s.advancePtr).status = s.status := rfl
@[simp] theorem advancePtr_control (s : State) : (s.advancePtr).control = s.control := rfl
@[simp] theorem advancePtr_bst (s : State) : (s.advancePtr).bst = s.bst := rfl
@[simp] theorem advancePtr_ptr (s : State) : (s.advancePtr).ptr = nextPtr s.ptr := rfl
@[simp] theorem advancePtr_rej (s : State) : (s.advancePtr).rej = s.rej := rfl
@[simp] theorem advancePtr_tick (s : State) : (s.advancePtr).tick = s.tick := rfl
@[simp] theorem advancePtr_level (s : State) : (s.advancePtr).level = s.level := rfl
@[simp] theorem advancePtr_auxA (s : State) : (s.advancePtr).auxA = s.auxA := rfl
@[simp] theorem advancePtr_auxB (s : State) : (s.advancePtr).auxB = s.auxB := rfl
@[simp] theorem advancePtr_en (s : State) : (s.advancePtr).en = s.en := rfl
@[simp] theorem advancePtr_stmp (s : State) : (s.advancePtr).stmp = s.stmp := rfl
@[simp] theorem advancePtr_ph (s : State) : (s.advancePtr).ph = s.ph := rfl
@[simp] theorem advancePtr_lpc (s : State) : (s.advancePtr).lpc = s.lpc := rfl
@[simp] theorem advancePtr_out (s : State) : (s.advancePtr).out = s.out := rfl
@[simp] theorem advancePtr_ventN (s : State) : (s.advancePtr).ventN = s.ventN := rfl
@[simp] theorem advancePtr_wdrf (s : State) : (s.advancePtr).wdrf = s.wdrf := rfl
@[simp] theorem advancePtr_wdtEn (s : State) : (s.advancePtr).wdtEn = s.wdtEn := rfl
@[simp] theorem advancePtr_irqMask (s : State) : (s.advancePtr).irqMask = s.irqMask := rfl
@[simp] theorem advancePtr_trace (s : State) : (s.advancePtr).trace = s.trace := rfl
@[simp] theorem advancePtr_draws (s : State) : (s.advancePtr).draws = s.draws := rfl
@[simp] theorem advancePtr_obs (s : State) : (s.advancePtr).obs = s.obs := rfl

/-! The end of a transaction (R30). -/

@[simp] theorem endTransaction_status (s : State) : (s.endTransaction).status = s.status := rfl
@[simp] theorem endTransaction_control (s : State) : (s.endTransaction).control = s.control := rfl
@[simp] theorem endTransaction_bst (s : State) : (s.endTransaction).bst = .idle := rfl
@[simp] theorem endTransaction_ptr (s : State) : (s.endTransaction).ptr = s.ptr := rfl
@[simp] theorem endTransaction_rej (s : State) : (s.endTransaction).rej = false := rfl
@[simp] theorem endTransaction_tick (s : State) : (s.endTransaction).tick = s.tick := rfl
@[simp] theorem endTransaction_level (s : State) : (s.endTransaction).level = s.level := rfl
@[simp] theorem endTransaction_auxA (s : State) : (s.endTransaction).auxA = s.auxA := rfl
@[simp] theorem endTransaction_auxB (s : State) : (s.endTransaction).auxB = s.auxB := rfl
@[simp] theorem endTransaction_en (s : State) : (s.endTransaction).en = s.en := rfl
@[simp] theorem endTransaction_stmp (s : State) : (s.endTransaction).stmp = s.stmp := rfl
@[simp] theorem endTransaction_ph (s : State) : (s.endTransaction).ph = s.ph := rfl
@[simp] theorem endTransaction_lpc (s : State) : (s.endTransaction).lpc = s.lpc := rfl
@[simp] theorem endTransaction_out (s : State) : (s.endTransaction).out = s.out := rfl
@[simp] theorem endTransaction_ventN (s : State) : (s.endTransaction).ventN = s.ventN := rfl
@[simp] theorem endTransaction_wdrf (s : State) : (s.endTransaction).wdrf = s.wdrf := rfl
@[simp] theorem endTransaction_wdtEn (s : State) : (s.endTransaction).wdtEn = s.wdtEn := rfl
@[simp] theorem endTransaction_irqMask (s : State) : (s.endTransaction).irqMask = s.irqMask := rfl
@[simp] theorem endTransaction_trace (s : State) : (s.endTransaction).trace = s.trace := rfl
@[simp] theorem endTransaction_draws (s : State) : (s.endTransaction).draws = s.draws := rfl
@[simp] theorem endTransaction_obs (s : State) : (s.endTransaction).obs = s.obs := rfl

/-! A free byte is sent (R140, R141). -/

@[simp] theorem sendDrawn_status (s : State) : (s.sendDrawn).status = s.status := rfl
@[simp] theorem sendDrawn_control (s : State) : (s.sendDrawn).control = s.control := rfl
@[simp] theorem sendDrawn_bst (s : State) : (s.sendDrawn).bst = s.bst := rfl
@[simp] theorem sendDrawn_ptr (s : State) : (s.sendDrawn).ptr = s.ptr := rfl
@[simp] theorem sendDrawn_rej (s : State) : (s.sendDrawn).rej = s.rej := rfl
@[simp] theorem sendDrawn_tick (s : State) : (s.sendDrawn).tick = s.tick := rfl
@[simp] theorem sendDrawn_level (s : State) : (s.sendDrawn).level = s.level := rfl
@[simp] theorem sendDrawn_auxA (s : State) : (s.sendDrawn).auxA = s.auxA := rfl
@[simp] theorem sendDrawn_auxB (s : State) : (s.sendDrawn).auxB = s.auxB := rfl
@[simp] theorem sendDrawn_en (s : State) : (s.sendDrawn).en = s.en := rfl
@[simp] theorem sendDrawn_stmp (s : State) : (s.sendDrawn).stmp = s.stmp := rfl
@[simp] theorem sendDrawn_ph (s : State) : (s.sendDrawn).ph = s.ph := rfl
@[simp] theorem sendDrawn_lpc (s : State) : (s.sendDrawn).lpc = s.lpc := rfl
@[simp] theorem sendDrawn_out (s : State) : (s.sendDrawn).out = s.out := rfl
@[simp] theorem sendDrawn_ventN (s : State) : (s.sendDrawn).ventN = s.ventN := rfl
@[simp] theorem sendDrawn_wdrf (s : State) : (s.sendDrawn).wdrf = s.wdrf := rfl
@[simp] theorem sendDrawn_wdtEn (s : State) : (s.sendDrawn).wdtEn = s.wdtEn := rfl
@[simp] theorem sendDrawn_irqMask (s : State) : (s.sendDrawn).irqMask = s.irqMask := rfl
@[simp] theorem sendDrawn_trace (s : State) : (s.sendDrawn).trace = s.trace := rfl
@[simp] theorem sendDrawn_draws (s : State) : (s.sendDrawn).draws = s.draws + 1 := rfl
@[simp] theorem sendDrawn_obs (s : State) : (s.sendDrawn).obs = { sent := some (Config.drawByte s.draws) } := rfl

/-! The step pointer moves on (R34). -/

@[simp] theorem advanceLpc_status (s : State) : (s.advanceLpc).status = s.status := rfl
@[simp] theorem advanceLpc_control (s : State) : (s.advanceLpc).control = s.control := rfl
@[simp] theorem advanceLpc_bst (s : State) : (s.advanceLpc).bst = s.bst := rfl
@[simp] theorem advanceLpc_ptr (s : State) : (s.advanceLpc).ptr = s.ptr := rfl
@[simp] theorem advanceLpc_rej (s : State) : (s.advanceLpc).rej = s.rej := rfl
@[simp] theorem advanceLpc_tick (s : State) : (s.advanceLpc).tick = s.tick := rfl
@[simp] theorem advanceLpc_level (s : State) : (s.advanceLpc).level = s.level := rfl
@[simp] theorem advanceLpc_auxA (s : State) : (s.advanceLpc).auxA = s.auxA := rfl
@[simp] theorem advanceLpc_auxB (s : State) : (s.advanceLpc).auxB = s.auxB := rfl
@[simp] theorem advanceLpc_en (s : State) : (s.advanceLpc).en = s.en := rfl
@[simp] theorem advanceLpc_stmp (s : State) : (s.advanceLpc).stmp = s.stmp := rfl
@[simp] theorem advanceLpc_ph (s : State) : (s.advanceLpc).ph = s.ph := rfl
@[simp] theorem advanceLpc_lpc (s : State) : (s.advanceLpc).lpc = nextStep s.lpc := rfl
@[simp] theorem advanceLpc_out (s : State) : (s.advanceLpc).out = s.out := rfl
@[simp] theorem advanceLpc_ventN (s : State) : (s.advanceLpc).ventN = s.ventN := rfl
@[simp] theorem advanceLpc_wdrf (s : State) : (s.advanceLpc).wdrf = s.wdrf := rfl
@[simp] theorem advanceLpc_wdtEn (s : State) : (s.advanceLpc).wdtEn = s.wdtEn := rfl
@[simp] theorem advanceLpc_irqMask (s : State) : (s.advanceLpc).irqMask = s.irqMask := rfl
@[simp] theorem advanceLpc_trace (s : State) : (s.advanceLpc).trace = s.trace := rfl
@[simp] theorem advanceLpc_draws (s : State) : (s.advanceLpc).draws = s.draws := rfl
@[simp] theorem advanceLpc_obs (s : State) : (s.advanceLpc).obs = s.obs := rfl

/-! The oldest waiting event is taken. -/

@[simp] theorem consumeWord_status (s : State) : (s.consumeWord).status = s.status := rfl
@[simp] theorem consumeWord_control (s : State) : (s.consumeWord).control = s.control := rfl
@[simp] theorem consumeWord_bst (s : State) : (s.consumeWord).bst = s.bst := rfl
@[simp] theorem consumeWord_ptr (s : State) : (s.consumeWord).ptr = s.ptr := rfl
@[simp] theorem consumeWord_rej (s : State) : (s.consumeWord).rej = s.rej := rfl
@[simp] theorem consumeWord_tick (s : State) : (s.consumeWord).tick = s.tick := rfl
@[simp] theorem consumeWord_level (s : State) : (s.consumeWord).level = s.level := rfl
@[simp] theorem consumeWord_auxA (s : State) : (s.consumeWord).auxA = s.auxA := rfl
@[simp] theorem consumeWord_auxB (s : State) : (s.consumeWord).auxB = s.auxB := rfl
@[simp] theorem consumeWord_en (s : State) : (s.consumeWord).en = s.en := rfl
@[simp] theorem consumeWord_stmp (s : State) : (s.consumeWord).stmp = s.stmp := rfl
@[simp] theorem consumeWord_ph (s : State) : (s.consumeWord).ph = s.ph := rfl
@[simp] theorem consumeWord_lpc (s : State) : (s.consumeWord).lpc = s.lpc := rfl
@[simp] theorem consumeWord_out (s : State) : (s.consumeWord).out = s.out := rfl
@[simp] theorem consumeWord_ventN (s : State) : (s.consumeWord).ventN = s.ventN := rfl
@[simp] theorem consumeWord_wdrf (s : State) : (s.consumeWord).wdrf = s.wdrf := rfl
@[simp] theorem consumeWord_wdtEn (s : State) : (s.consumeWord).wdtEn = s.wdtEn := rfl
@[simp] theorem consumeWord_irqMask (s : State) : (s.consumeWord).irqMask = s.irqMask := rfl
@[simp] theorem consumeWord_trace (s : State) : (s.consumeWord).trace = s.trace.tail := rfl
@[simp] theorem consumeWord_draws (s : State) : (s.consumeWord).draws = s.draws := rfl
@[simp] theorem consumeWord_obs (s : State) : (s.consumeWord).obs = s.obs := rfl

/-! The write of one register (R62): the other fields stay, and the registers are read back as written. -/

@[simp] theorem setReg_bst (s : State) (i : RegIndex) (v : Byte) : (s.setReg i v).bst = s.bst := by
  unfold State.setReg; split <;> rfl
@[simp] theorem setReg_ptr (s : State) (i : RegIndex) (v : Byte) : (s.setReg i v).ptr = s.ptr := by
  unfold State.setReg; split <;> rfl
@[simp] theorem setReg_rej (s : State) (i : RegIndex) (v : Byte) : (s.setReg i v).rej = s.rej := by
  unfold State.setReg; split <;> rfl
@[simp] theorem setReg_tick (s : State) (i : RegIndex) (v : Byte) : (s.setReg i v).tick = s.tick := by
  unfold State.setReg; split <;> rfl
@[simp] theorem setReg_level (s : State) (i : RegIndex) (v : Byte) : (s.setReg i v).level = s.level := by
  unfold State.setReg; split <;> rfl
@[simp] theorem setReg_auxA (s : State) (i : RegIndex) (v : Byte) : (s.setReg i v).auxA = s.auxA := by
  unfold State.setReg; split <;> rfl
@[simp] theorem setReg_auxB (s : State) (i : RegIndex) (v : Byte) : (s.setReg i v).auxB = s.auxB := by
  unfold State.setReg; split <;> rfl
@[simp] theorem setReg_en (s : State) (i : RegIndex) (v : Byte) : (s.setReg i v).en = s.en := by
  unfold State.setReg; split <;> rfl
@[simp] theorem setReg_stmp (s : State) (i : RegIndex) (v : Byte) : (s.setReg i v).stmp = s.stmp := by
  unfold State.setReg; split <;> rfl
@[simp] theorem setReg_ph (s : State) (i : RegIndex) (v : Byte) : (s.setReg i v).ph = s.ph := by
  unfold State.setReg; split <;> rfl
@[simp] theorem setReg_lpc (s : State) (i : RegIndex) (v : Byte) : (s.setReg i v).lpc = s.lpc := by
  unfold State.setReg; split <;> rfl
@[simp] theorem setReg_out (s : State) (i : RegIndex) (v : Byte) : (s.setReg i v).out = s.out := by
  unfold State.setReg; split <;> rfl
@[simp] theorem setReg_ventN (s : State) (i : RegIndex) (v : Byte) : (s.setReg i v).ventN = s.ventN := by
  unfold State.setReg; split <;> rfl
@[simp] theorem setReg_wdrf (s : State) (i : RegIndex) (v : Byte) : (s.setReg i v).wdrf = s.wdrf := by
  unfold State.setReg; split <;> rfl
@[simp] theorem setReg_wdtEn (s : State) (i : RegIndex) (v : Byte) : (s.setReg i v).wdtEn = s.wdtEn := by
  unfold State.setReg; split <;> rfl
@[simp] theorem setReg_irqMask (s : State) (i : RegIndex) (v : Byte) : (s.setReg i v).irqMask = s.irqMask := by
  unfold State.setReg; split <;> rfl
@[simp] theorem setReg_trace (s : State) (i : RegIndex) (v : Byte) : (s.setReg i v).trace = s.trace := by
  unfold State.setReg; split <;> rfl
@[simp] theorem setReg_draws (s : State) (i : RegIndex) (v : Byte) : (s.setReg i v).draws = s.draws := by
  unfold State.setReg; split <;> rfl
@[simp] theorem setReg_obs (s : State) (i : RegIndex) (v : Byte) : (s.setReg i v).obs = s.obs := by
  unfold State.setReg; split <;> rfl

@[simp] theorem setReg_statusIx (s : State) (v : Byte) :
    s.setReg statusIx v = { s with status := v } := rfl

@[simp] theorem setReg_controlIx (s : State) (v : Byte) :
    s.setReg controlIx v = { s with control := v } := rfl

@[simp] theorem reg_statusIx (s : State) : s.reg statusIx = s.status := rfl

@[simp] theorem reg_controlIx (s : State) : s.reg controlIx = s.control := rfl

/-- A register index is STATUS's or CONTROL's. -/
theorem regIndex_cases (i : RegIndex) : i = statusIx ∨ i = controlIx := by
  revert i; decide

/-- Read after write to the same register. -/
@[simp] theorem reg_setReg_same (s : State) (i : RegIndex) (v : Byte) :
    (s.setReg i v).reg i = v := by
  rcases regIndex_cases i with rfl | rfl <;> rfl

/-- A write leaves the other register alone. -/
theorem reg_setReg_other (s : State) (i j : RegIndex) (v : Byte) (h : j ≠ i) :
    (s.setReg i v).reg j = s.reg j := by
  rcases regIndex_cases i with rfl | rfl <;> rcases regIndex_cases j with rfl | rfl <;>
    first | rfl | exact absurd rfl h

/-- Reading the registers depends on the two register fields only. -/
theorem reg_congr (s t : State) (hs : t.status = s.status) (hc : t.control = s.control)
    (j : RegIndex) : t.reg j = s.reg j := by
  rcases regIndex_cases j with rfl | rfl
  · exact hs
  · exact hc

end Sys2Proof.Machine
end

