-- ==== Sys2Proof/Laws/Ops.lean ====
section
/-! SUPPORT. What each shared operation can do, said once: the register pointer and the operand forms, the restart, the bus operations by protocol state, the pattern function, the critical section, and the steps of the sequencer. -/

namespace Sys2Proof.Machine

/-- The pointer wraps modulo 2 (R29). -/
theorem nextPtr_toNat (p : RegIndex) : (nextPtr p).toNat = (p.toNat + 1) % 2 := by
  revert p; decide

/-- The counter after a TICK is in range (R122). -/
theorem nextTick_toNat (t : Byte) : (nextTick t).toNat = (t.toNat + 1) % 10 := by
  simp only [nextTick, Config.period, Config.tickHz, Config.periodSeconds, BitVec.toNat_ofNat]
  omega

/-- The echo byte as a number (R94, R183). -/
theorem controlByte_toNat (b a : Bool) (l : Level) :
    (controlByte b a l).toNat = 128 * b.toNat + 64 * a.toNat + l.toNat := by
  revert b a l; decide

/-- The fields of a CONTROL byte as numbers (R94, R101). -/
theorem controlFields_toNat (b : Byte) :
    (controlLevel b).toNat = b.toNat % 64 ∧ (controlAuxA b).toNat = b.toNat / 64 % 2 ∧
      (controlAuxB b).toNat = b.toNat / 128 := by
  revert b; decide

/-- The echo byte carries the local state it was made of (R101, R183). -/
theorem controlFields_controlByte (b a : Bool) (l : Level) :
    controlLevel (controlByte b a l) = l ∧ controlAuxA (controlByte b a l) = a ∧
      controlAuxB (controlByte b a l) = b := by
  revert b a l; decide

/-- Validation accepts exactly the levels below 31 (R25). -/
theorem validLevel_iff (l : Level) : validLevel l = true ↔ l.toNat < 31 := by
  simp [validLevel, Config.levelLimit, Config.stage, Config.period, Config.tickHz,
    Config.periodSeconds]

/-- An index byte is in range exactly when it is 0 or 1 (R92). -/
theorem validIndex_iff (v : Byte) : validIndex v = true ↔ v.toNat < 2 := by
  simp [validIndex, Config.regSize]

/-- An in-range index byte selects the register of that number (R102). -/
theorem indexBit_toNat (v : Byte) (h : v.toNat < 2) : (indexBit v).toNat = v.toNat := by
  revert v; decide

/-- The domain of PATTERN (R162). -/
theorem inPatternDomain_iff (l p : Nat) : inPatternDomain l p = true ↔ l ≤ 30 ∧ p ≤ 9 := by
  have hl : Config.levelLimit = 31 := rfl
  have hp : Config.period = 10 := rfl
  rw [inPatternDomain, Bool.and_eq_true, decide_eq_true_iff, decide_eq_true_iff, hl, hp]
  omega

/-- What a restart leaves, element by element (R250 to R252). -/
theorem restart_eq (s : State) (c : Bool) :
    s.restart c =
      { status := restartStatus (s.wdrf || c), control := 0x00#8, bst := .idle, ptr := 0#1,
        rej := false, tick := 0#8, level := 0#6, auxA := false, auxB := false, en := false,
        stmp := 0#8, ph := 0#8, lpc := .kick, out := 0#5, ventN := s.ventN, wdrf := false,
        wdtEn := true, irqMask := false, trace := s.trace, draws := s.draws,
        obs := { raised := restartCondition c } } := rfl

/-- What L.SNAP does with a valid request (R182, R192). -/
theorem snapOp_valid (s : State) (h : validLevel (controlLevel s.control) = true) :
    snapOp s =
      { s with
        level := controlLevel s.control, auxA := controlAuxA s.control,
        auxB := controlAuxB s.control, irqMask := false, lpc := nextStep s.lpc, obs := {} } := by
  simp only [snapOp, State.critical, snapshotBody, State.reg, statusIx, controlIx]
  simp [h, State.advanceLpc, State.quiet, State.observe]

/-- What L.SNAP does with an invalid request (R182, R183). -/
theorem snapOp_invalid (s : State) (h : validLevel (controlLevel s.control) = false) :
    snapOp s =
      { s with
        control := controlByte s.auxB s.auxA s.level, irqMask := false, lpc := nextStep s.lpc,
        obs := { raised := some ⟨.invalidRequest, some s.control⟩ } } := by
  simp only [snapOp, State.critical, snapshotBody, State.reg, statusIx, controlIx]
  simp [h, State.advanceLpc, State.observe, State.setReg, statusIx]

/-- What L.STWR does (R186). -/
theorem statusWriteOp_eq (s : State) :
    statusWriteOp s =
      { s with status := statusUpdate s.en s.stmp, lpc := nextStep s.lpc, obs := {} } := rfl

/-- STATUS after the update: HDIS the inverse of `en`, the other bits kept (R186). -/
theorem statusUpdate_bits (en : Bool) (b : Byte) :
    statusHdis (statusUpdate en b) = !en ∧ (statusUpdate en b).toNat / 2 = b.toNat / 2 ∧
      statusWdok (statusUpdate en b) = statusWdok b := by
  revert en b; decide

/-- The bits of `{r3, r2, r1}` (R160). -/
theorem heaterMask_bits (r3 r2 r1 : Bool) :
    (heaterMask r3 r2 r1).getLsbD 0 = r1 ∧ (heaterMask r3 r2 r1).getLsbD 1 = r2 ∧
      (heaterMask r3 r2 r1).getLsbD 2 = r3 := by
  revert r3 r2 r1; decide

/-- The bits of an output mask (R163, R164). -/
theorem outputMask_bits (b a : Bool) (h : HeaterMask) :
    (outputMask b a h).getLsbD 4 = b ∧ (outputMask b a h).getLsbD 3 = a ∧
      heaterBits (outputMask b a h) = h ∧
      (∀ k : Nat, k < 3 → (outputMask b a h).getLsbD k = h.getLsbD k) := by
  revert b a h; decide

/-- OUTMASK with the interlock: the heater bits are off and the auxiliary bits pass (R163). -/
theorem outmask?_disabled (level phase : Nat) (a b : Bool) :
    outmask? level phase a b false = some (outputMask b a 0b000#3) := rfl

/-- OUTMASK with the ventilation active, on the domain (R163). -/
theorem outmask?_enabled (level phase : Nat) (a b : Bool) (h : inPatternDomain level phase = true) :
    outmask? level phase a b true = some (outputMask b a (relayPattern Config.stage level phase)) := by
  simp [outmask?, pattern?, h]

/-- What L.DRIVE does where it has a value to drive (R188). -/
theorem driveOp_eq (s : State) (m : OutMask)
    (h : outmask? s.level.toNat s.ph.toNat s.auxA s.auxB s.en = some m) :
    driveOp s = .next { s with out := m, lpc := nextStep s.lpc, obs := {} } := by
  simp only [driveOp, h]; rfl

end Sys2Proof.Machine
end

