-- ==== Sys2Proof/Laws/Exec.lean ====
section
/-! SUPPORT. What an operation can do, said once: `exec_effect` is the inversion lemma of exec, one case per row of the opcode table that the state selects; frames, ownership and invariants follow from it by cases. -/

namespace Sys2Proof.Machine

/-- The next state of each row, as its rule gives it. -/
inductive RowEffect (s : State) : Instr → State → Prop where
  | tick : RowEffect s .tick { s with tick := nextTick s.tick, obs := {} }
  | startW : RowEffect s .startW { s with bst := .aw, obs := { ack := true } }
  | startR : RowEffect s .startR { s with bst := .ar, obs := { ack := true } }
  | startMiss (a : DeviceAddress) (d : Bool) (h : a ≠ Config.busAddr) :
      RowEffect s (.startMiss a d) { s with bst := .idle, rej := false, obs := {} }
  | rxIndexIn (v : Byte) (hb : s.bst = .aw) (h : v.toNat < 2) :
      RowEffect s (.rxIndex v)
        { s with ptr := indexBit v, rej := false, bst := .ix, obs := { ack := true } }
  | rxIndexOut (v : Byte) (hb : s.bst = .aw) (h : 2 ≤ v.toNat) :
      RowEffect s (.rxIndex v)
        { s with
          rej := true, bst := .ix,
          obs := { ack := true, raised := some ⟨.indexOutOfRange, some v⟩ } }
  | rxStatus (b : Byte) (hb : s.bst = .ix) (hr : s.rej = false) (hp : s.ptr = 0#1) :
      RowEffect s (.rxData b) { s with status := b, ptr := 1#1, obs := { ack := true } }
  | rxControl (b : Byte) (hb : s.bst = .ix) (hr : s.rej = false) (hp : s.ptr = 1#1) :
      RowEffect s (.rxData b) { s with control := b, ptr := 0#1, obs := { ack := true } }
  | rxDiscarded (b : Byte) (hb : s.bst = .ix) (hr : s.rej = true) :
      RowEffect s (.rxData b) { s with obs := { ack := true } }
  | rxIgnored (b : Byte) (hb : s.bst = .idle ∨ s.bst = .ar) :
      RowEffect s (.rxIgnored b) { s with obs := {} }
  | tx (hb : s.bst = .ar) (hr : s.rej = false) :
      RowEffect s .tx { s with ptr := nextPtr s.ptr, obs := { sent := some (s.reg s.ptr) } }
  | txRej (hb : s.bst = .ar) (hr : s.rej = true) : RowEffect s .txRej s.sendDrawn
  | txForeign (hb : s.bst ≠ .ar) : RowEffect s .txForeign s.sendDrawn
  | nackRead (hb : s.bst = .ar) :
      RowEffect s .nack { s with bst := .idle, rej := false, obs := {} }
  | nackOther (hb : s.bst ≠ .ar) : RowEffect s .nack { s with obs := {} }
  | stop : RowEffect s .stop { s with bst := .idle, rej := false, obs := {} }
  | lKick (h : s.lpc = .kick) : RowEffect s .lKick { s with lpc := .snap, obs := {} }
  | lSnapValid (h : s.lpc = .snap) (hv : validLevel (controlLevel s.control) = true) :
      RowEffect s .lSnap
        { s with
          level := controlLevel s.control, auxA := controlAuxA s.control,
          auxB := controlAuxB s.control, irqMask := false, lpc := .sample, obs := {} }
  | lSnapInvalid (h : s.lpc = .snap) (hv : validLevel (controlLevel s.control) = false) :
      RowEffect s .lSnap
        { s with
          control := controlByte s.auxB s.auxA s.level, irqMask := false, lpc := .sample,
          obs := { raised := some ⟨.invalidRequest, some s.control⟩ } }
  | lSample (h : s.lpc = .sample) :
      RowEffect s .lSample { s with en := !s.ventN, lpc := .strd, obs := {} }
  | lStrd (h : s.lpc = .strd) :
      RowEffect s .lStrd { s with stmp := s.status, lpc := .stwr, obs := {} }
  | lStwr (h : s.lpc = .stwr) :
      RowEffect s .lStwr { s with status := statusUpdate s.en s.stmp, lpc := .phase, obs := {} }
  | lPhase (h : s.lpc = .phase) :
      RowEffect s .lPhase
        { s with ph := if s.en then s.tick else 0#8, lpc := .drive, obs := {} }
  | lDrive (h : s.lpc = .drive) (m : OutMask)
      (hm : outmask? s.level.toNat s.ph.toNat s.auxA s.auxB s.en = some m) :
      RowEffect s .lDrive { s with out := m, lpc := .delay, obs := {} }
  | lDelay (h : s.lpc = .delay) : RowEffect s .lDelay { s with lpc := .kick, obs := {} }
  | vent (v : Bool) : RowEffect s (.vent v) { s with ventN := v, obs := {} }
  | reset (c : Bool) : RowEffect s (.reset c) (s.restart c)
  | pattern (l : Level) (p : BitVec 4) (h : HeaterMask) (hp : pattern? l.toNat p.toNat = some h) :
      RowEffect s (.pattern l p) { s with obs := { heater := some h } }
  | outmask (e b a : Bool) (l : Level) (p : BitVec 4) (m : OutMask)
      (hm : outmask? l.toNat p.toNat a b e = some m) :
      RowEffect s (.outmask e b a l p) { s with obs := { mask := some m } }

/-- START by address and direction. -/
theorem startOp_effect (a : DeviceAddress) (d : Bool) (s : State) :
    RowEffect s (selectedRow s (.start a d)) (startOp Config.busAddr a d s) := by
  by_cases h : a = Config.busAddr
  · cases d <;> simp only [selectedRow, startOp, ownAddress, h, decide_true, if_true]
    · exact .startW
    · exact .startR
  · simp only [selectedRow, startOp, ownAddress, h, decide_false]
    exact .startMiss a d h

/-- RX.INDEX in `AW`. -/
theorem rxIndexOp_effect (v : Byte) (s : State) (hb : s.bst = .aw) :
    RowEffect s (.rxIndex v) (rxIndexOp v s) := by
  by_cases hv : v.toNat < 2
  · rw [rxIndexOp, if_pos ((validIndex_iff v).2 hv)]
    exact .rxIndexIn v hb hv
  · rw [rxIndexOp, if_neg (mt (validIndex_iff v).1 hv)]
    exact .rxIndexOut v hb (Nat.le_of_not_lt hv)

/-- RX.DATA in `IX`. -/
theorem rxDataOp_effect (b : Byte) (s : State) (hb : s.bst = .ix) :
    RowEffect s (.rxData b) (rxDataOp b s) := by
  cases hr : s.rej
  · rcases regIndex_cases s.ptr with hp | hp
    · have e : rxDataOp b s = { s with status := b, ptr := 1#1, obs := { ack := true } } := by
        rw [rxDataOp, if_neg (by rw [hr]; decide), hp, setReg_statusIx]
        simp only [State.advancePtr, State.observe, hp]; rfl
      rw [e]; exact .rxStatus b hb hr hp
    · have e : rxDataOp b s = { s with control := b, ptr := 0#1, obs := { ack := true } } := by
        rw [rxDataOp, if_neg (by rw [hr]; decide), hp, setReg_controlIx]
        simp only [State.advancePtr, State.observe, hp]; rfl
      rw [e]; exact .rxControl b hb hr hp
  · have e : rxDataOp b s = { s with obs := { ack := true } } := by
      rw [rxDataOp, if_pos hr]; rfl
    rw [e]; exact .rxDiscarded b hb hr

/-- RX by protocol state. -/
theorem rxOp_effect (b : Byte) (s : State) :
    RowEffect s (selectedRow s (.rx b)) (rxOp b s) := by
  cases hb : s.bst <;> simp only [selectedRow, rxOp, hb]
  · exact .rxIgnored b (.inl hb)
  · exact rxIndexOp_effect b s hb
  · exact rxDataOp_effect b s hb
  · exact .rxIgnored b (.inr hb)

/-- TX by protocol state. -/
theorem txEventOp_effect (s : State) : RowEffect s (selectedRow s .tx) (txEventOp s) := by
  cases hb : s.bst <;> simp only [selectedRow, txEventOp, hb]
  case ar =>
    cases hr : s.rej
    · exact .tx hb hr
    · exact .txRej hb hr
  all_goals exact .txForeign (by rw [hb]; decide)

/-- NACK by protocol state. -/
theorem nackOp_effect (s : State) : RowEffect s .nack (nackOp s) := by
  cases hb : s.bst <;> simp only [nackOp, hb]
  case ar => exact .nackRead hb
  all_goals exact .nackOther (by rw [hb]; decide)

/-- L.SNAP by the validity of the snapshot. -/
theorem snapOp_effect (s : State) (h : s.lpc = .snap) : RowEffect s .lSnap (snapOp s) := by
  cases hv : validLevel (controlLevel s.control)
  · rw [snapOp_invalid s hv, h]; exact .lSnapInvalid h hv
  · rw [snapOp_valid s hv, h]; exact .lSnapValid h hv

/-- L.DRIVE where it answers a next state. -/
theorem driveOp_effect (s t : State) (h : s.lpc = .drive) (ht : driveOp s = .next t) :
    RowEffect s .lDrive t := by
  cases hm : outmask? s.level.toNat s.ph.toNat s.auxA s.auxB s.en with
  | none => simp only [driveOp, hm] at ht; cases ht
  | some m =>
    rw [driveOp_eq s m hm, h] at ht
    cases ht
    exact .lDrive h m hm

/-- LOOP by the step pointer. -/
theorem execLoop_effect (s t : State) (ht : execLoop s = .next t) :
    RowEffect s (loopRow s.lpc) t := by
  cases h : s.lpc <;> simp only [execLoop, h] at ht
  case drive => exact driveOp_effect s t h ht
  all_goals cases ht
  · simp only [kickOp, State.advanceLpc, State.quiet, State.observe, h]; exact .lKick h
  · exact snapOp_effect s h
  · simp only [sampleOp, State.advanceLpc, State.quiet, State.observe, h]; exact .lSample h
  · simp only [statusReadOp, State.advanceLpc, State.quiet, State.observe, h]; exact .lStrd h
  · rw [statusWriteOp_eq, h]; exact .lStwr h
  · simp only [phaseOp, State.advanceLpc, State.quiet, State.observe, h]; exact .lPhase h
  · simp only [delayOp, State.advanceLpc, State.quiet, State.observe, h]; exact .lDelay h

/-- A row of the sequencer that is not refused runs where `lpc` names it, and then does what LOOP does. -/
theorem whenAt_next {p : SeqStep} {row : String} {s t : State}
    {answer : Host.Outcome State Fault Refusal} (h : whenAt p row s answer = .next t) :
    s.lpc = p ∧ answer = .next t := by
  unfold whenAt at h
  split at h
  · exact ⟨‹_›, h⟩
  · cases h

/-- The row an event selects is a case of that event (R108, R109). -/
theorem event_selectedRow (s : State) (i : Instr) (hi : i.event = i) :
    (selectedRow s i).event = i := by
  cases i with
  | start a d =>
    by_cases ha : a = Config.busAddr
    · cases d <;> simp [selectedRow, ownAddress, ha, Instr.event]
    · simp [selectedRow, ownAddress, ha, Instr.event]
  | rx b => cases hb : s.bst <;> simp [selectedRow, hb, Instr.event]
  | tx => cases hb : s.bst <;> cases hr : s.rej <;> simp [selectedRow, hb, hr, Instr.event]
  | loop => cases hl : s.lpc <;> simp [selectedRow, hl, loopRow, Instr.event]
  | _ => exact hi

/-- An event is its own event. -/
@[simp] theorem event_event (i : Instr) : i.event.event = i.event := by
  cases i <;> rfl

/-- The row an operation is in a state has the operation's event. -/
theorem event_rowIn (s : State) (i : Instr) : (rowIn s i).event = i.event :=
  event_selectedRow s i.event (event_event i)

/-- The inversion lemma of exec: where it answers a next state, that state is the effect of the row the operation's event selects. -/
theorem exec_effect (i : Instr) (s t : State) (h : exec i s = .next t) :
    RowEffect s (rowIn s i) t := by
  have loopCase : ∀ p, s.lpc = p → execLoop s = .next t → RowEffect s (loopRow p) t :=
    fun p hp ht => hp ▸ execLoop_effect s t ht
  cases i with
  | tick => cases h; exact .tick
  | start a d => cases h; exact startOp_effect a d s
  | startW => cases h; simp only [rowIn, Instr.event, selectedRow, ownAddress]; simp; exact .startW
  | startR => cases h; simp only [rowIn, Instr.event, selectedRow, ownAddress]; simp; exact .startR
  | startMiss a d =>
    by_cases ha : a = Config.busAddr
    · simp [exec, execStartMiss, ownAddress, ha] at h
    · simp only [exec, execStartMiss, ownAddress, ha, decide_false] at h
      cases h
      simp only [rowIn, Instr.event, selectedRow, ownAddress, ha, decide_false]
      exact .startMiss a d ha
  | rx b => cases h; exact rxOp_effect b s
  | rxIndex v =>
    cases hb : s.bst <;> simp only [exec, execRxIndex, hb] at h <;> cases h
    simpa only [rowIn, Instr.event, selectedRow, hb] using rxIndexOp_effect v s hb
  | rxData b =>
    cases hb : s.bst <;> simp only [exec, execRxData, hb] at h <;> cases h
    simpa only [rowIn, Instr.event, selectedRow, hb] using rxDataOp_effect b s hb
  | rxIgnored b =>
    cases hb : s.bst <;> simp only [exec, execRxIgnored, hb] at h <;> cases h
    · simp only [rowIn, Instr.event, selectedRow, hb]; exact .rxIgnored b (.inl hb)
    · simp only [rowIn, Instr.event, selectedRow, hb]; exact .rxIgnored b (.inr hb)
  | tx => cases h; exact txEventOp_effect s
  | txRej =>
    cases hb : s.bst <;> cases hr : s.rej <;> simp only [exec, execTxRej, hb, hr] at h <;> cases h
    simp only [rowIn, Instr.event, selectedRow, hb, hr, if_true]; exact .txRej hb hr
  | txForeign =>
    cases hb : s.bst <;> simp only [exec, execTxForeign, hb] at h <;> cases h <;>
      (simp only [rowIn, Instr.event, selectedRow, hb]; exact .txForeign (by rw [hb]; decide))
  | nack => cases h; exact nackOp_effect s
  | stop => cases h; exact .stop
  | loop => exact execLoop_effect s t h
  | lKick =>
    obtain ⟨hp, ht⟩ := whenAt_next h
    simpa only [rowIn, Instr.event, selectedRow, hp] using loopCase _ hp (by simp only [execLoop, hp, ht])
  | lSnap =>
    obtain ⟨hp, ht⟩ := whenAt_next h
    simpa only [rowIn, Instr.event, selectedRow, hp] using loopCase _ hp (by simp only [execLoop, hp, ht])
  | lSample =>
    obtain ⟨hp, ht⟩ := whenAt_next h
    simpa only [rowIn, Instr.event, selectedRow, hp] using loopCase _ hp (by simp only [execLoop, hp, ht])
  | lStrd =>
    obtain ⟨hp, ht⟩ := whenAt_next h
    simpa only [rowIn, Instr.event, selectedRow, hp] using loopCase _ hp (by simp only [execLoop, hp, ht])
  | lStwr =>
    obtain ⟨hp, ht⟩ := whenAt_next h
    simpa only [rowIn, Instr.event, selectedRow, hp] using loopCase _ hp (by simp only [execLoop, hp, ht])
  | lPhase =>
    obtain ⟨hp, ht⟩ := whenAt_next h
    simpa only [rowIn, Instr.event, selectedRow, hp] using loopCase _ hp (by simp only [execLoop, hp, ht])
  | lDrive =>
    obtain ⟨hp, ht⟩ := whenAt_next h
    simpa only [rowIn, Instr.event, selectedRow, hp] using loopCase _ hp (by simp only [execLoop, hp, ht])
  | lDelay =>
    obtain ⟨hp, ht⟩ := whenAt_next h
    simpa only [rowIn, Instr.event, selectedRow, hp] using loopCase _ hp (by simp only [execLoop, hp, ht])
  | vent v => cases h; exact .vent v
  | reset c => cases h; exact .reset c
  | pattern l p =>
    cases hp : pattern? l.toNat p.toNat <;> simp only [exec, execPattern, hp] at h <;> cases h
    exact .pattern l p _ hp
  | outmask e b a l p =>
    cases hm : outmask? l.toNat p.toNat a b e <;> simp only [exec, execOutmask, hm] at h <;> cases h
    exact .outmask e b a l p _ hm

/-- LOOP looks at no waiting event. -/
theorem execLoop_withTrace (tr : List TraceWord) (s t : State) (h : execLoop s = .next t) :
    execLoop { s with trace := tr } = .next { t with trace := tr } := by
  obtain ⟨status, control, bst, ptr, rej, tick, level, auxA, auxB, en, stmp, ph, lpc, out, ventN,
    wdrf, wdtEn, irqMask, trace, draws, obs⟩ := s
  cases lpc
  case drive =>
    simp only [execLoop, driveOp] at h ⊢
    cases hm : outmask? level.toNat ph.toNat auxA auxB en <;> simp only [hm] at h ⊢ <;> cases h
    rfl
  case snap =>
    cases h
    cases hv : validLevel (controlLevel control) <;> simp only [execLoop]
    · rw [snapOp_invalid _ hv, snapOp_invalid _ hv]
    · rw [snapOp_valid _ hv, snapOp_valid _ hv]
  all_goals (cases h; rfl)

/-- exec looks at no waiting event and takes none. -/
theorem exec_withTrace (i : Instr) (tr : List TraceWord) (s t : State) (h : exec i s = .next t) :
    exec i { s with trace := tr } = .next { t with trace := tr } := by
  have loopCase := execLoop_withTrace tr s t
  obtain ⟨status, control, bst, ptr, rej, tick, level, auxA, auxB, en, stmp, ph, lpc, out, ventN,
    wdrf, wdtEn, irqMask, trace, draws, obs⟩ := s
  cases i with
  | start a d =>
    cases h
    simp only [exec, execStart, startOp]
    by_cases ha : ownAddress Config.busAddr a = true <;> simp only [ha] <;> cases d <;> rfl
  | startMiss a d =>
    simp only [exec, execStartMiss] at h ⊢
    by_cases ha : ownAddress Config.busAddr a = true <;> simp only [ha] at h ⊢ <;> cases h
    rfl
  | rx b =>
    cases h
    cases bst
    case aw => simp only [exec, execRx, rxOp, rxIndexOp]; split <;> rfl
    case ix => rcases regIndex_cases ptr with rfl | rfl <;> cases rej <;> rfl
    all_goals rfl
  | rxIndex v =>
    cases bst <;> cases h
    simp only [exec, execRxIndex, rxIndexOp]; split <;> rfl
  | rxData b =>
    cases bst <;> cases h
    rcases regIndex_cases ptr with rfl | rfl <;> cases rej <;> rfl
  | rxIgnored b => cases bst <;> cases h <;> rfl
  | tx => cases h; cases bst <;> cases rej <;> rfl
  | txRej => cases bst <;> cases rej <;> cases h; rfl
  | txForeign => cases bst <;> cases h <;> rfl
  | nack => cases h; cases bst <;> rfl
  | loop => exact loopCase h
  | lSnap =>
    obtain ⟨hp, ht⟩ := whenAt_next h
    cases hp; exact loopCase ht
  | lDrive =>
    obtain ⟨hp, ht⟩ := whenAt_next h
    cases hp; exact loopCase ht
  | pattern l p =>
    simp only [exec, execPattern] at h ⊢
    cases hm : pattern? l.toNat p.toNat <;> simp only [hm] at h ⊢ <;> cases h
    rfl
  | outmask e b a l p =>
    simp only [exec, execOutmask] at h ⊢
    cases hm : outmask? l.toNat p.toNat a b e <;> simp only [hm] at h ⊢ <;> cases h
    rfl
  | tick => cases h; rfl
  | startW => cases h; rfl
  | startR => cases h; rfl
  | stop => cases h; rfl
  | vent v => cases h; rfl
  | reset c => cases h; rfl
  | _ => cases lpc <;> cases h <;> rfl

end Sys2Proof.Machine
end

