-- ==== Sys2Proof/Laws/PerInstr.lean ====
section
/-! SUPPORT. Statements made per instruction. EncodedKind: every operation is encoded with the kind the opcode map gives it (spec/30_encoding.md R100), and the two combinational functions with an argument word, which has no kind (R110). -/

namespace Sys2Proof.Laws.EncodedKind

/-- The kind field of an event word, bits 11:8 (R99). -/
def kindOf : TraceWord → Option Nat
  | .event w => some (w.toNat / 256)
  | .pattern _ => none
  | .outmask _ => none
  | .malformed _ _ => none

/-- The kind column of the opcode map (R100). -/
def tableKind : Instr → Option Nat
  | .tick => some 0x0
  | .start _ _ | .startW | .startR | .startMiss _ _ => some 0x1
  | .rx _ | .rxIndex _ | .rxData _ | .rxIgnored _ => some 0x2
  | .tx | .txRej | .txForeign => some 0x3
  | .nack => some 0x4
  | .stop => some 0x5
  | .loop | .lKick | .lSnap | .lSample | .lStrd | .lStwr | .lPhase | .lDrive | .lDelay => some 0x6
  | .vent _ => some 0x7
  | .reset _ => some 0x8
  | .pattern _ _ | .outmask _ _ _ _ _ => none

/-- The word an operation is encoded with has the kind the table gives it. -/
def Statement (i : Instr) : Prop := kindOf (encode i) = tableKind i

/-- The kind of an event word built from a kind and a payload. -/
theorem kindOf_eventWord (k : BitVec 4) (p : Byte) :
    kindOf (.event (eventWord k p)) = some k.toNat := by
  have hp := p.isLt
  simp only [kindOf, eventWord_toNat, Option.some.injEq]
  omega

theorem tick : Statement .tick := kindOf_eventWord _ _
theorem start (a : DeviceAddress) (d : Bool) : Statement (.start a d) := kindOf_eventWord _ _
theorem startW : Statement .startW := kindOf_eventWord _ _
theorem startR : Statement .startR := kindOf_eventWord _ _
theorem startMiss (a : DeviceAddress) (d : Bool) : Statement (.startMiss a d) :=
  kindOf_eventWord _ _
theorem rx (b : Byte) : Statement (.rx b) := kindOf_eventWord _ _
theorem rxIndex (v : Byte) : Statement (.rxIndex v) := kindOf_eventWord _ _
theorem rxData (b : Byte) : Statement (.rxData b) := kindOf_eventWord _ _
theorem rxIgnored (b : Byte) : Statement (.rxIgnored b) := kindOf_eventWord _ _
theorem tx : Statement .tx := kindOf_eventWord _ _
theorem txRej : Statement .txRej := kindOf_eventWord _ _
theorem txForeign : Statement .txForeign := kindOf_eventWord _ _
theorem nack : Statement .nack := kindOf_eventWord _ _
theorem stop : Statement .stop := kindOf_eventWord _ _
theorem loop : Statement .loop := kindOf_eventWord _ _
theorem lKick : Statement .lKick := kindOf_eventWord _ _
theorem lSnap : Statement .lSnap := kindOf_eventWord _ _
theorem lSample : Statement .lSample := kindOf_eventWord _ _
theorem lStrd : Statement .lStrd := kindOf_eventWord _ _
theorem lStwr : Statement .lStwr := kindOf_eventWord _ _
theorem lPhase : Statement .lPhase := kindOf_eventWord _ _
theorem lDrive : Statement .lDrive := kindOf_eventWord _ _
theorem lDelay : Statement .lDelay := kindOf_eventWord _ _
theorem vent (v : Bool) : Statement (.vent v) := kindOf_eventWord _ _
theorem reset (c : Bool) : Statement (.reset c) := kindOf_eventWord _ _
theorem pattern (level : Level) (phase : BitVec 4) : Statement (.pattern level phase) := rfl
theorem outmask (en auxB auxA : Bool) (level : Level) (phase : BitVec 4) :
    Statement (.outmask en auxB auxA level phase) := rfl

end Sys2Proof.Laws.EncodedKind
end

