-- ==== Sys2Proof/Tests/Slice0.lean ====
section
/-! SUPPORT. The model's own tests: words written out from spec/30_encoding.md, single steps with the expected values of spec/95_test_vectors.md, ill-formed terms, and for every obligation with hypotheses a state and operands that meet them. -/

namespace Sys2Proof.Tests
open Sys2Proof Sys2Proof.Machine

/-! Helpers. -/

/-- The next state, where there is one. -/
def after : Host.Outcome State Fault Refusal → Option State
  | .next s => some s
  | .fault _ => none
  | .refused _ => none

/-- The refusal, where there is one. -/
def refusal : Host.Outcome State Fault Refusal → Option Refusal
  | .next _ => none
  | .fault _ => none
  | .refused r => some r

/-- The instruction a word decodes to, where there is one. -/
def read (w : TraceWord) : Option Instr := (decode w).toOption

/-- A bus state over the reset state. -/
def busAt (b : BusState) (p : RegIndex) (r : Bool) : State :=
  { State.reset with bst := b, ptr := p, rej := r }

/-- A sequencer state over the reset state, with the local state of the spec's L.SNAP vectors (95 section 2.5). -/
def seqAt (p : SeqStep) (control : Byte) : State :=
  { State.reset with lpc := p, control := control, level := 5#6, auxA := true }

/-- L.DRIVE with the values of the spec's OUTMASK vectors (95 section 2.3). -/
def driveAt (level : Level) (ph : Byte) (a b en : Bool) : State :=
  { State.reset with lpc := .drive, level := level, ph := ph, auxA := a, auxB := b, en := en }

/-! Well-formedness: an ill-formed term for each check. -/

theorem test_startMiss_own_address_ill_formed (d : Bool) :
    Instr.wellFormed (.startMiss Config.busAddr d) = false := by simp [Instr.wellFormed]
theorem test_pattern_level_ill_formed : Instr.wellFormed (.pattern 31#6 0#4) = false := by decide
theorem test_pattern_phase_ill_formed : Instr.wellFormed (.pattern 0#6 10#4) = false := by decide
theorem test_outmask_level_ill_formed :
    Instr.wellFormed (.outmask true false false 31#6 0#4) = false := by decide
theorem test_outmask_phase_ill_formed :
    Instr.wellFormed (.outmask true false false 30#6 10#4) = false := by decide
theorem test_config_valid : Config.valid Config.period Config.levelLimit = true := by decide
theorem test_config_period_22_refused : Config.valid 22 67 = false := by decide
theorem test_config_period_0_refused : Config.valid 0 1 = false := by decide
theorem test_config_untied_limit_refused : Config.valid 5 31 = false := by decide

/-! Decoding: words written out bit by bit from R100, R106, R110. A row that shares its word with others decodes to the event. -/

theorem test_decode_tick : read (.event 0b000000000000#12) = some .tick := by decide
theorem test_decode_start_write : read (.event 0b000100100000#12) = some (.start 0x10#7 false) := by decide
theorem test_decode_start_read : read (.event 0b000100100001#12) = some (.start 0x10#7 true) := by decide
theorem test_decode_start_top : read (.event 0b000111111111#12) = some (.start 0x7F#7 true) := by decide
theorem test_decode_rx : read (.event 0b001010000001#12) = some (.rx 0x81#8) := by decide
theorem test_decode_tx : read (.event 0b001100000000#12) = some .tx := by decide
theorem test_decode_nack : read (.event 0b010000000000#12) = some .nack := by decide
theorem test_decode_stop : read (.event 0b010100000000#12) = some .stop := by decide
theorem test_decode_loop : read (.event 0b011000000000#12) = some .loop := by decide
theorem test_decode_vent : read (.event 0b011100000001#12) = some (.vent true) := by decide
theorem test_decode_reset : read (.event 0b100000000001#12) = some (.reset true) := by decide
theorem test_decode_pattern : read (.pattern 0b0011010010#10) = some (.pattern 13#6 2#4) := by decide
theorem test_decode_outmask_fields :
    read (.outmask 0b1100111100000#13) = some (.outmask true true false 30#6 0#4) := by decide
theorem test_decode_kind_9_refused : decode (.event 0x900#12) = .error .unknownKind := by rfl
theorem test_decode_tick_payload_refused : decode (.event 0x001#12) = .error .payloadNotZero := by rfl
theorem test_decode_vent_payload_refused : decode (.event 0x702#12) = .error .payloadNotZero := by rfl
theorem test_decode_reset_payload_refused : decode (.event 0x880#12) = .error .payloadNotZero := by rfl
theorem test_decode_pattern_level_31_refused : read (.pattern 0b0111110000#10) = none := by decide
theorem test_decode_outmask_phase_10_refused : read (.outmask 0b0000000001010#13) = none := by decide

/-! Encoding: the words of R106, and a row that shares its word. -/

theorem test_encode_rx : encode (.rx 0x45#8) = .event 0x245#12 := by decide
theorem test_encode_start : encode (.start 0x10#7 true) = .event 0x121#12 := by decide
theorem test_encode_reset : encode (.reset true) = .event 0x801#12 := by decide
theorem test_encode_lSnap : encode .lSnap = .event 0x600#12 := by decide
theorem test_write_words :
    (pseudoWrite 0x10#7 0x01#8 [0x45#8]).map encode =
      [.event 0x120#12, .event 0x201#12, .event 0x245#12, .event 0x500#12] := by decide
theorem test_readAt_words :
    (pseudoReadAt 0x10#7 0x01#8 1).map encode =
      [.event 0x120#12, .event 0x201#12, .event 0x121#12, .event 0x300#12, .event 0x400#12,
        .event 0x500#12] := by decide

/-! Table rows and the first step after reset. -/

theorem test_table_event_12 : decodeTableWord 12 0x281 = some (.rx 0x81#8) := by decide
theorem test_table_event_16 : decodeTableWord 16 0x701 = some (.vent true) := by decide
theorem test_table_pattern : decodeTableWord 10 0b0011010010 = some (.pattern 13#6 2#4) := by decide
theorem test_table_outmask :
    decodeTableWord 13 0b1010011010010 = some (.outmask true false true 13#6 2#4) := by decide
theorem test_table_wide_refused : decodeTableWord 12 0x1000 = none := by decide
theorem test_first_step_vent :
    (after (step (State.reset.withFetchWord 12 0x700))).map State.ventN = some false := by decide
theorem test_first_step_pattern :
    (after (step (State.reset.withFetchWord 10 0b0011010010))).map (fun s => s.obs.heater) =
      some (some 0b011#3) := by decide
theorem test_first_step_bad_word :
    refusal (step (State.reset.withFetchWord 12 0xF00)) = some (.badWord .unknownKind) := by decide
theorem test_step_without_events_is_loop :
    (after (step State.reset)).map State.lpc = some .snap := by decide

/-! Tick source (95 section 2.1). -/

theorem test_tick_first : (after (exec .tick State.reset)).map State.tick = some 1#8 := by decide
theorem test_tick_wraps :
    (after (exec .tick { State.reset with tick := 9#8 })).map State.tick = some 0#8 := by decide

/-! Bus interface (95 section 2.4; the addresses are those of D32). -/

theorem test_start_B1 : (startOp 0x10#7 0x10#7 false (busAt .idle 1#1 false)).bst = .aw ∧
    (startOp 0x10#7 0x10#7 false (busAt .idle 1#1 false)).ptr = 1#1 := by decide
theorem test_start_B3 : (startOp 0x10#7 0x11#7 false (busAt .ix 0#1 true)).bst = .idle ∧
    (startOp 0x10#7 0x11#7 false (busAt .ix 0#1 true)).rej = false := by decide
theorem test_startW_keeps_rejection :
    (after (exec .startW (busAt .ix 0#1 true))).map (fun s => (s.bst, s.rej, s.obs.ack)) =
      some (.aw, true, true) := by decide
theorem test_startR_B2 :
    (after (exec .startR (busAt .idle 1#1 false))).map (fun s => (s.bst, s.ptr)) =
      some (.ar, 1#1) := by decide
theorem test_startMiss_own_address_stops :
    exec (.startMiss Config.busAddr true) State.reset = .refused (.notSelected "START.MISS") := by
  simp [exec, execStartMiss, ownAddress]
theorem test_rxIndex_B5 :
    (after (exec (.rxIndex 0x01#8) (busAt .aw 0#1 false))).map (fun s => (s.bst, s.ptr, s.rej)) =
      some (.ix, 1#1, false) := by decide
theorem test_rxIndex_B7 :
    (after (exec (.rxIndex 0x02#8) (busAt .aw 1#1 false))).map (fun s => (s.bst, s.ptr, s.rej)) =
      some (.ix, 1#1, true) := by decide
theorem test_rx_index_B8 :
    (after (exec (.rx 0x81#8) (busAt .aw 0#1 false))).map (fun s => (s.ptr, s.rej, s.obs.raised)) =
      some (0#1, true, some ⟨.indexOutOfRange, some 0x81#8⟩) := by decide
theorem test_rxData_B10 :
    (after (exec (.rxData 0x45#8) (busAt .ix 1#1 false))).map (fun s => (s.control, s.ptr)) =
      some (0x45#8, 0#1) := by decide
theorem test_rxData_B11 :
    (after (exec (.rxData 0x42#8) (busAt .ix 0#1 false))).map (fun s => (s.status, s.ptr)) =
      some (0x42#8, 1#1) := by decide
theorem test_rx_data_B12 :
    (after (exec (.rx 0xAA#8) (busAt .ix 1#1 true))).map (fun s => (s.control, s.ptr, s.obs.ack)) =
      some (0x00#8, 1#1, true) := by decide
theorem test_rxIgnored_B13 :
    (after (exec (.rxIgnored 0xAA#8) State.reset)).map (fun s => (s.control, s.obs.ack)) =
      some (0x00#8, false) := by decide
theorem test_rxIgnored_in_AW_stops :
    refusal (exec (.rxIgnored 0xAA#8) (busAt .aw 0#1 false)) = some (.notSelected "RX.IGNORED") := by
  decide
theorem test_tx_B14 :
    (after (exec .tx { busAt .ar 0#1 false with status := 0x03#8 })).map
      (fun s => (s.obs.sent, s.ptr)) = some (some 0x03#8, 1#1) := by decide
theorem test_tx_B15 :
    (after (exec .tx { busAt .ar 1#1 false with control := 0x45#8 })).map
      (fun s => (s.obs.sent, s.ptr)) = some (some 0x45#8, 0#1) := by decide
theorem test_txRej_B16 :
    (after (exec .txRej (busAt .ar 1#1 true))).map (fun s => (s.obs.sent.isSome, s.ptr)) =
      some (true, 1#1) := by decide
theorem test_txForeign_B17 :
    (after (exec .txForeign (busAt .idle 1#1 false))).map (fun s => (s.obs.sent.isSome, s.ptr)) =
      some (true, 1#1) := by decide
theorem test_nack_B18 :
    (after (exec .nack (busAt .ar 1#1 false))).map (fun s => (s.bst, s.ptr)) =
      some (.idle, 1#1) := by decide
theorem test_nack_B19 :
    (after (exec .nack (busAt .ix 1#1 true))).map (fun s => (s.bst, s.rej)) =
      some (.ix, true) := by decide
theorem test_stop_B20 :
    (after (exec .stop (busAt .ix 0#1 true))).map (fun s => (s.bst, s.ptr, s.rej)) =
      some (.idle, 0#1, false) := by decide

/-! Relay pattern and output mask (95 sections 2.2, 2.3). -/

theorem test_pattern_11_1 :
    (after (exec (.pattern 11#6 1#4) State.reset)).map (fun s => s.obs.heater) =
      some (some 0b001#3) := by decide
theorem test_pattern_21_0 :
    (after (exec (.pattern 21#6 0#4) State.reset)).map (fun s => s.obs.heater) =
      some (some 0b111#3) := by decide
theorem test_outmask_13_2 :
    (after (exec (.outmask true false true 13#6 2#4) State.reset)).map (fun s => s.obs.mask) =
      some (some 0b01011#5) := by decide
theorem test_outmask_interlock :
    (after (exec (.outmask false true true 30#6 0#4) State.reset)).map (fun s => s.obs.mask) =
      some (some 0b11000#5) := by decide
theorem test_pattern_stage_boundaries :
    relayPattern 10 10 9 = 0b001#3 ∧ relayPattern 10 20 9 = 0b011#3 ∧
      relayPattern 10 30 9 = 0b111#3 ∧ relayPattern 10 29 9 = 0b011#3 := by decide

/-! Control sequencer (95 section 2.5). -/

theorem test_loop_order :
    (after (exec .loop (seqAt .delay 0x00#8))).map State.lpc = some .kick := by decide
theorem test_lKick :
    (after (exec .lKick State.reset)).map (fun s => (s.lpc, s.status)) = some (.snap, 0x02#8) := by
  decide
theorem test_lSnap_9F :
    (after (exec .lSnap (seqAt .snap 0x9F#8))).map
      (fun s => (s.control, s.level, s.auxA, s.auxB)) = some (0x45#8, 5#6, true, false) := by decide
theorem test_lSnap_DE :
    (after (exec .lSnap (seqAt .snap 0xDE#8))).map
      (fun s => (s.control, s.level, s.auxA, s.auxB)) = some (0xDE#8, 30#6, true, true) := by decide
theorem test_lSnap_elsewhere_stops :
    refusal (exec .lSnap (seqAt .drive 0x00#8)) = some (.notSelected "L.SNAP") := by decide
theorem test_lSample :
    (after (exec .lSample { State.reset with lpc := .sample, ventN := false })).map State.en =
      some true := by decide
theorem test_lStrd :
    (after (exec .lStrd (seqAt .strd 0x00#8))).map State.stmp = some 0x02#8 := by decide
theorem test_lStwr_FF :
    (after (exec .lStwr { State.reset with lpc := .stwr, stmp := 0xFF#8, en := true })).map
      State.status = some 0xFE#8 := by decide
theorem test_lStwr_02 :
    (after (exec .lStwr { State.reset with lpc := .stwr, stmp := 0x02#8, en := false })).map
      State.status = some 0x03#8 := by decide
theorem test_lPhase_enabled :
    (after (exec .lPhase { State.reset with lpc := .phase, tick := 7#8, en := true })).map
      State.ph = some 7#8 := by decide
theorem test_lPhase_disabled :
    (after (exec .lPhase { State.reset with lpc := .phase, tick := 7#8, en := false })).map
      State.ph = some 0#8 := by decide
theorem test_lDrive_5_5 :
    (after (exec .lDrive (driveAt 5#6 5#8 false true true))).map State.out =
      some 0b10000#5 := by decide
theorem test_lDrive_interlock :
    (after (exec .lDrive (driveAt 30#6 0#8 true true false))).map State.out =
      some 0b11000#5 := by decide
theorem test_lDelay :
    (after (exec .lDelay (seqAt .delay 0x00#8))).map State.lpc = some .kick := by decide

/-! Environment (95 section 2.6). -/

theorem test_vent : (after (exec (.vent false) State.reset)).map (fun s => (s.ventN, s.en)) =
    some (false, false) := by decide
theorem test_reset_watchdog :
    (after (exec (.reset true) (driveAt 30#6 9#8 true true true))).map
      (fun s => (s.status, s.control, s.level, s.out, s.wdrf)) =
      some (0x00#8, 0x00#8, 0#6, 0b00000#5, false) := by decide
theorem test_reset_other :
    (after (exec (.reset false) (driveAt 30#6 9#8 true true true))).map
      (fun s => (s.status, s.lpc, s.bst)) = some (0x02#8, .kick, .idle) := by decide

/-! Witnesses: a state and operands that meet the hypotheses of each obligation that has some, and each of its clauses. -/

/-- A state other than the reset state that meets the invariant, at every range's upper end. -/
def topState (p : SeqStep) : State :=
  { State.reset with tick := 9#8, ph := 9#8, level := 30#6, out := 0b11111#5, lpc := p, en := true }

theorem topState_inv (p : SeqStep) : (topState p).Inv := by
  cases p <;> constructor <;> decide

theorem test_witness_TicksAccumulateModuloPeriod : (topState .kick).tick.toNat < 10 := by decide
theorem test_witness_TickLeavesCounterInRange :
    (after (exec .tick { State.reset with tick := 255#8 })).map State.tick = some 6#8 := by decide
theorem test_witness_StartSelectsByAddressAndDirection :
    Config.busAddr + 1#7 ≠ Config.busAddr := by
  generalize Config.busAddr = a; revert a; decide
theorem test_witness_ForeignAddressReturnsToIdle :
    (Config.busAddr ^^^ 0x7F#7) ≠ Config.busAddr := by
  generalize Config.busAddr = a; revert a; decide
theorem test_witness_IndexByteSelectsOrRejects :
    (busAt .aw 0#1 false).bst = .aw ∧ (0x01#8).toNat < 2 ∧ 2 ≤ (0x02#8).toNat := by decide
theorem test_witness_DataByteStoresAtPointerAndWraps :
    (busAt .ix 1#1 false).bst = .ix ∧ (busAt .ix 1#1 false).rej = false ∧
      (busAt .ix 1#1 true).bst = .ix ∧ (busAt .ix 1#1 true).rej = true := by decide
theorem test_witness_ByteOutsideAWriteIsIgnored :
    (busAt .idle 0#1 false).bst = .idle ∧ (busAt .ar 0#1 false).bst = .ar := by decide
theorem test_witness_TransmitSendsRegisterAtPointer :
    (busAt .ar 1#1 false).bst = .ar ∧ (busAt .ar 1#1 false).rej = false := by decide
theorem test_witness_TransmitAfterRejectionLeavesPointer :
    (busAt .ar 1#1 true).bst = .ar ∧ (busAt .ar 1#1 true).rej = true := by decide
theorem test_witness_ForeignTransmitChangesNothing : (busAt .ix 0#1 false).bst ≠ .ar := by decide
theorem test_witness_NackEndsOnlyARead :
    (busAt .ar 0#1 true).bst = .ar ∧ (busAt .ix 0#1 true).bst ≠ .ar := by decide
theorem test_witness_AcknowledgesExactlyWhenAddressed :
    ∃ t, exec (.rx 0x02#8) (busAt .aw 0#1 false) = .next t := ⟨_, rfl⟩
theorem test_witness_PointerMovesOnlyByTransfersAndReset :
    ∃ t, exec .tx (busAt .ar 1#1 false) = .next t ∧ t.ptr ≠ (busAt .ar 1#1 false).ptr :=
  ⟨_, rfl, by decide⟩
theorem test_witness_WriteTransactionStoresAlternately :
    (0x01#8).toNat < 2 ∧ 2 ≤ (0x02#8).toNat ∧ 0 < [0x45#8, 0x42#8].length ∧
      [0x45#8, 0x42#8].length ≤ 0 + 2 := by decide
theorem test_witness_ReadTransactionReturnsRegistersInTurn : (busAt .ix 1#1 false).rej = false := by
  decide
theorem test_witness_CombinedTransactionReadsFromIndex :
    (0x00#8).toNat < 2 ∧ 2 ≤ (0xFF#8).toNat := by decide
theorem test_witness_PatternFollowsItsThreeBranches :
    20 < 21 ∧ 21 ≤ 30 ∧ 10 < 20 ∧ 20 ≤ 20 ∧ 10 ≤ 10 ∧ 9 < 10 := by decide
theorem test_witness_PatternHasClosedForm : 30 ≤ 3 * 10 ∧ 9 < 10 ∧ 2 < 3 := by decide
theorem test_witness_PatternDutySumsToLevel : 63 ≤ 3 * 21 := by decide
theorem test_witness_PatternMonotoneInLevelAndPhase : 12 ≤ 30 ∧ 30 ≤ 3 * 10 ∧ 2 ≤ 9 ∧ 9 < 10 := by
  decide
theorem test_witness_PatternPulsesAtMostOneRelay :
    13 ≤ 3 * 10 ∧ 2 < 10 ∧ 3 < 10 ∧
      (relayPattern 10 13 2).getLsbD 1 ≠ (relayPattern 10 13 3).getLsbD 1 := by decide
theorem test_witness_PatternWordEvaluates :
    (30#6).toNat ≤ 30 ∧ (9#4).toNat ≤ 9 ∧ 30 < (31#6).toNat ∧ 9 < (10#4).toNat := by decide
theorem test_witness_OutmaskWordAppliesInterlock :
    (30#6).toNat ≤ 30 ∧ (9#4).toNat ≤ 9 ∧ 30 < (31#6).toNat ∧ 9 < (10#4).toNat := by decide
theorem test_witness_KickAndDelayOnlyAdvance :
    (topState .kick).lpc = .kick ∧ (topState .delay).lpc = .delay := by decide
theorem test_witness_SnapshotAcceptsValidRequest :
    (seqAt .snap 0xDE#8).lpc = .snap ∧ (seqAt .snap 0xDE#8).control.toNat % 64 < 31 := by decide
theorem test_witness_SnapshotEchoesLastGoodRequest :
    (seqAt .snap 0x1F#8).lpc = .snap ∧ 31 ≤ (seqAt .snap 0x1F#8).control.toNat % 64 := by decide
theorem test_witness_EchoIsAcceptedUnchanged :
    (seqAt .snap 0x3F#8).lpc = .snap ∧ (seqAt .snap 0x3F#8).level.toNat < 31 ∧
      31 ≤ (seqAt .snap 0x3F#8).control.toNat % 64 ∧
      (after (exec .lSnap (seqAt .snap 0x3F#8))).isSome = true := by decide
theorem test_witness_SampleAndStatusReadLatchTheirInput :
    (topState .sample).lpc = .sample ∧ (topState .strd).lpc = .strd := by decide
theorem test_witness_StatusWriteSetsHeaterDisabledFlag : (topState .stwr).lpc = .stwr := by decide
theorem test_witness_PhaseStepTakesTheCounterOrZero :
    (topState .phase).lpc = .phase ∧ (topState .phase).en = true ∧
      (seqAt .phase 0x00#8).lpc = .phase ∧ (seqAt .phase 0x00#8).en = false := by decide
theorem test_witness_DriveWritesOutputMask :
    (topState .drive).lpc = .drive ∧ (topState .drive).level.toNat ≤ 30 ∧
      (topState .drive).ph.toNat ≤ 9 ∧ (driveAt 63#6 255#8 true false false).lpc = .drive ∧
      (driveAt 63#6 255#8 true false false).en = false := by decide
theorem test_witness_DriveStopsOutsideTheDomain :
    (driveAt 31#6 0#8 true false true).lpc = .drive ∧ (driveAt 31#6 0#8 true false true).en = true ∧
      30 < (driveAt 31#6 0#8 true false true).level.toNat ∧
      9 < (driveAt 0#6 10#8 true false true).ph.toNat := by decide
theorem test_witness_SequencerFollowsItsFixedOrder :
    (topState .drive).canDrive = true ∧
      (after (exec .loop (topState .drive))).map State.lpc = some .delay := by decide
theorem test_witness_IterationAchievesItsSummary :
    (topState .kick).Inv ∧ (topState .kick).lpc = .kick ∧
      (topState .kick).control.toNat % 64 < 31 ∧
      ({ topState .kick with control := 0x3F#8 } : State).Inv ∧
      31 ≤ ({ topState .kick with control := 0x3F#8 } : State).control.toNat % 64 := by
  refine ⟨topState_inv _, rfl, by decide, ?_, by decide⟩
  constructor <;> decide
theorem test_witness_VentIsFollowedByTheNextIteration :
    (topState .kick).Inv ∧ (topState .kick).lpc = .kick := ⟨topState_inv _, rfl⟩
theorem test_witness_RestartCauseIsRecordedOnce : (topState .kick).wdrf = false := by decide
theorem test_witness_EveryStepKeepsTheInvariant :
    (topState .drive).Inv ∧ ∃ t, step (topState .drive) = .next t := by
  refine ⟨topState_inv _, ?_⟩
  cases h : step (topState .drive) with
  | next t => exact ⟨t, rfl⟩
  | fault r => exact nomatch r
  | refused r =>
    have e : refusal (step (topState .drive)) = none := by decide
    rw [h] at e; cases e
theorem test_witness_EveryDecodedWordCompletes :
    (topState .drive).Inv ∧ decode (.event 0x600#12) = .ok .loop ∧ (topState .drive).trace = [] :=
  ⟨topState_inv _, rfl, rfl⟩
theorem test_witness_EventsRunTheSelectedRow : Instr.event (.rx 0x01#8) = .rx 0x01#8 := by decide
theorem test_witness_UnselectedRowsStop :
    Instr.event .lSnap ≠ .lSnap ∧ rowIn (topState .drive) .lSnap ≠ .lSnap := by decide
theorem test_witness_ElementsChangeOnlyByTheirOwners :
    ∃ t, exec .lDrive (driveAt 13#6 2#8 true false false) = .next t ∧
      isReset .lDrive = false ∧ t.out ≠ (driveAt 13#6 2#8 true false false).out :=
  ⟨_, rfl, rfl, by decide⟩
theorem test_witness_WatchdogFlagIsLatched :
    ∃ t, exec (.rx 0x00#8) (busAt .ix 0#1 false) = .next t ∧
      statusWdok t.status ≠ statusWdok (busAt .ix 0#1 false).status := ⟨_, rfl, by decide⟩
theorem test_witness_TickAndBusHandlersCommute :
    isBusEvent .tx = true ∧ ∃ t, exec .tx (busAt .ar 1#1 false) = .next t := ⟨rfl, _, rfl⟩
theorem test_witness_StatusWriteBetweenReadAndWriteIsLost :
    ({ busAt .ix 0#1 false with lpc := .strd } : State).lpc = .strd ∧
      ({ busAt .ix 0#1 false with lpc := .strd } : State).bst = .ix ∧
      ({ busAt .ix 0#1 false with lpc := .strd } : State).rej = false ∧
      ({ busAt .ix 0#1 false with lpc := .strd } : State).ptr = 0#1 := by decide
theorem test_witness_SecondWriteCoalescesWithFirst : (topState .snap).lpc = .snap := by decide
theorem test_witness_OutputLagsTheTick :
    (topState .phase).Inv ∧ (topState .phase).lpc = .phase := ⟨topState_inv _, rfl⟩
theorem test_witness_ControlWriteWaitsForTheSnapshot :
    (topState .snap).lpc = .snap ∧ (0x5E#8).toNat % 64 < 31 := by decide
theorem test_witness_DecodeOfEncodeGivesTheEvent :
    Instr.wellFormed (.outmask true true false 30#6 9#4) = true := by decide
theorem test_witness_EncodeOfDecodeGivesTheWord : decode (.event 0x1FF#12) = .ok (.start 0x7F#7 true) :=
  rfl
theorem test_witness_StepRunsTheDecodedInstruction :
    (State.reset.withFetchWord 12 0x245).trace = [.event 0x245#12] ∧
      read (.event 0x245#12) = some (.rx 0x45#8) ∧ State.reset.trace = [] := by decide
theorem test_witness_RunOfWordsExecutesTheirEvents :
    (∀ i ∈ [Instr.tick, Instr.loop], i.wellFormed = true) ∧ State.reset.trace = [] ∧
      (after (execAll ([Instr.tick, Instr.loop].map Instr.event) State.reset)).isSome = true := by
  decide
theorem test_witness_AuxiliaryRequestsNeedAValidLevel :
    isReset .lSnap = false ∧ ∃ t, exec .lSnap (seqAt .snap 0x9E#8) = .next t ∧
      t.auxA ≠ (seqAt .snap 0x9E#8).auxA ∧ t.auxB ≠ (seqAt .snap 0x9E#8).auxB :=
  ⟨rfl, _, rfl, by decide, by decide⟩
theorem test_witness_TickIsTheOnlyMutatorOfTheCounter :
    (topState .kick).tick.toNat < 10 ∧ ∃ t, exec .tick (topState .kick) = .next t ∧
      t.tick ≠ (topState .kick).tick := ⟨by decide, _, rfl, by decide⟩

end Sys2Proof.Tests
end

namespace Sys2Proof.Machine

/-! The local auxiliary flags (R26, R27): what each row of the opcode table leaves in them. -/

/-- The rows of an event are restarts exactly when the event is. -/
theorem isReset_event (i : Instr) : isReset i.event = isReset i := by
  cases i <;> rfl

/-- The row an operation is in a state is a restart exactly when the operation is. -/
theorem isReset_rowIn (s : State) (i : Instr) : isReset (rowIn s i) = isReset i := by
  rw [← isReset_event (rowIn s i), event_rowIn, isReset_event]

/-- L.SNAP with a valid level takes both flags from CONTROL (R182); every other row but RESET keeps both. -/
theorem RowEffect.aux_kept_or_accepted {s t : State} {r : Instr} (he : RowEffect s r t)
    (hr : isReset r = false) :
    (t.auxA = s.auxA ∧ t.auxB = s.auxB) ∨
      (validLevel (controlLevel s.control) = true ∧
        t.auxA = controlAuxA s.control ∧ t.auxB = controlAuxB s.control) := by
  cases he with
  | lSnapValid _ hv => exact .inr ⟨hv, rfl, rfl⟩
  | reset c => cases hr
  | _ => exact .inl ⟨rfl, rfl⟩

/-- A CONTROL byte has a valid level exactly when its bits 5:0, as a number, are below 31 (R25, R101). -/
theorem validLevel_controlLevel_iff (b : Byte) :
    validLevel (controlLevel b) = true ↔ b.toNat % 64 < 31 := by
  rw [validLevel_iff, (controlFields_toNat b).1]

/-- Settles O59: of the rows an operation can be, only L.SNAP with a valid level moves the flags. -/
theorem auxiliaryRequestsNeedAValidLevel : Obligations.AuxiliaryRequestsNeedAValidLevel := by
  intro i s t h hi
  have hrow : isReset (rowIn s i) = false := (isReset_rowIn s i).trans hi
  obtain ⟨hA, hB⟩ | ⟨hv, hA, hB⟩ := (exec_effect i s t h).aux_kept_or_accepted hrow
  · exact ⟨fun hne => absurd hA hne, fun hne => absurd hB hne⟩
  · have hlevel := (validLevel_controlLevel_iff s.control).1 hv
    exact ⟨fun _ => ⟨hA, hlevel⟩, fun _ => ⟨hB, hlevel⟩⟩

end Sys2Proof.Machine

namespace Sys2Proof.Machine

/-! The rows that share a word (R108, R109): an event does what the row it selects does, and a row that
is not selected stops. -/

/-- START runs START.W, START.R or START.MISS by address and direction (R131). -/
theorem exec_selectedRow_start (a : DeviceAddress) (d : Bool) (s : State) :
    exec (selectedRow s (.start a d)) s = exec (.start a d) s := by
  by_cases ha : ownAddress Config.busAddr a = true
  · cases d <;> simp [selectedRow, exec, execStart, startOp, execStartW, execStartR, ha]
  · simp [selectedRow, exec, execStart, startOp, execStartMiss, ha]

/-- RX runs RX.INDEX, RX.DATA or RX.IGNORED by `bst` (R135). -/
theorem exec_selectedRow_rx (b : Byte) (s : State) :
    exec (selectedRow s (.rx b)) s = exec (.rx b) s := by
  cases hb : s.bst <;>
    simp only [selectedRow, exec, execRx, rxOp, execRxIndex, execRxData, execRxIgnored, hb]

/-- TX runs TX, TX.REJ or TX.FOREIGN by `bst` and `rej` (R139 to R141). -/
theorem exec_selectedRow_tx (s : State) : exec (selectedRow s .tx) s = exec .tx s := by
  cases hb : s.bst
  case ar => cases hr : s.rej <;> simp [selectedRow, exec, execTx, txEventOp, execTxRej, hb, hr]
  all_goals simp only [selectedRow, exec, execTx, txEventOp, execTxForeign, hb]

/-- A row of the sequencer does what LOOP does where `lpc` names it (R108). -/
theorem exec_loopRow_of_lpc {s : State} {p : SeqStep} (h : s.lpc = p) :
    exec (loopRow p) s = exec .loop s := by
  cases p <;> simp only [exec, execLoop, h] <;> exact if_pos h

/-- A row of the sequencer stops where `lpc` names another (R108; log 5). -/
theorem exec_loopRow_of_lpc_ne {s : State} {p : SeqStep} (h : s.lpc ≠ p) :
    ∃ row : String, exec (loopRow p) s = .refused (.notSelected row) := by
  cases p <;> exact ⟨_, if_neg h⟩

/-- The row an event selects does what the event does (R108, R109). -/
theorem exec_selectedRow (i : Instr) (s : State) (hi : i.event = i) :
    exec (selectedRow s i) s = exec i s := by
  cases i with
  | start a d => exact exec_selectedRow_start a d s
  | rx b => exact exec_selectedRow_rx b s
  | tx => exact exec_selectedRow_tx s
  | loop => exact exec_loopRow_of_lpc rfl
  | tick | nack | stop | vent | reset | pattern | outmask => rfl
  | _ => cases hi

/-- L.DRIVE answers a next state or stops outside the domain of PATTERN (R162, R188). -/
theorem driveOp_next_or_outsideDomain (s : State) :
    (∃ t : State, driveOp s = .next t) ∨ driveOp s = .refused .outsideDomain := by
  cases hm : outmask? s.level.toNat s.ph.toNat s.auxA s.auxB s.en with
  | none => exact .inr (by simp only [driveOp, hm])
  | some m => exact .inl ⟨_, driveOp_eq s m hm⟩

/-- LOOP answers a next state or, at DRIVE, stops outside the domain of PATTERN (R162, R190). -/
theorem execLoop_next_or_outsideDomain (s : State) :
    (∃ t : State, execLoop s = .next t) ∨ execLoop s = .refused .outsideDomain := by
  cases hp : s.lpc <;> simp only [execLoop, hp]
  case drive => exact driveOp_next_or_outsideDomain s
  all_goals exact .inl ⟨_, rfl⟩

/-- An event answers a next state or stops outside the domain of PATTERN, and is never refused otherwise. -/
theorem exec_event_next_or_outsideDomain (i : Instr) (s : State) (hi : i.event = i) :
    (∃ t : State, exec i s = .next t) ∨ exec i s = .refused .outsideDomain := by
  cases i with
  | loop => exact execLoop_next_or_outsideDomain s
  | pattern l p => cases hp : pattern? l.toNat p.toNat <;> simp [exec, execPattern, hp]
  | outmask e b a l p => cases hm : outmask? l.toNat p.toNat a b e <;> simp [exec, execOutmask, hm]
  | tick | start | rx | tx | nack | stop | vent | reset => exact .inl ⟨_, rfl⟩
  | _ => cases hi

/-- Settles O44: the event and its row agree, and an event stops only outside the domain of PATTERN. -/
theorem eventsRunTheSelectedRow : Obligations.EventsRunTheSelectedRow := by
  intro i s hi
  have hrow : exec (selectedRow s i) s = exec i s := exec_selectedRow i s hi
  refine ⟨hrow.symm, fun row hsel => ?_⟩
  obtain ⟨t, ht⟩ | hd := exec_event_next_or_outsideDomain i s hi
  · rw [hrow, ht] at hsel
    cases hsel
  · rw [hrow, hd] at hsel
    cases hsel

/-- START.MISS is the row of START for a foreign address, so it stops for the own one (R134; log 5). -/
theorem execStartMiss_of_rowIn_ne {a : DeviceAddress} {d : Bool} {s : State}
    (h : rowIn s (.startMiss a d) ≠ .startMiss a d) :
    execStartMiss a s = .refused (.notSelected "START.MISS") := by
  by_cases ha : ownAddress Config.busAddr a = true
  · exact if_pos ha
  · exact absurd (if_neg ha) h

/-- RX.INDEX is the row of RX in `AW`, so it stops elsewhere (R136; log 5). -/
theorem execRxIndex_of_rowIn_ne {v : Byte} {s : State}
    (h : rowIn s (.rxIndex v) ≠ .rxIndex v) :
    execRxIndex v s = .refused (.notSelected "RX.INDEX") := by
  cases hb : s.bst
  case aw => exact absurd (by simp only [rowIn, Instr.event, selectedRow, hb]) h
  all_goals simp only [execRxIndex, hb]

/-- RX.DATA is the row of RX in `IX`, so it stops elsewhere (R137; log 5). -/
theorem execRxData_of_rowIn_ne {b : Byte} {s : State} (h : rowIn s (.rxData b) ≠ .rxData b) :
    execRxData b s = .refused (.notSelected "RX.DATA") := by
  cases hb : s.bst
  case ix => exact absurd (by simp only [rowIn, Instr.event, selectedRow, hb]) h
  all_goals simp only [execRxData, hb]

/-- RX.IGNORED is the row of RX in `IDLE` and `AR`, so it stops in the other two (R138; log 5). -/
theorem execRxIgnored_of_rowIn_ne {b : Byte} {s : State}
    (h : rowIn s (.rxIgnored b) ≠ .rxIgnored b) :
    execRxIgnored s = .refused (.notSelected "RX.IGNORED") := by
  cases hb : s.bst
  case idle | ar => exact absurd (by simp only [rowIn, Instr.event, selectedRow, hb]) h
  all_goals simp only [execRxIgnored, hb]

/-- TX.REJ is the row of TX in `AR` after a rejected index, so it stops elsewhere (R140; log 5). -/
theorem execTxRej_of_rowIn_ne {s : State} (h : rowIn s .txRej ≠ .txRej) :
    execTxRej s = .refused (.notSelected "TX.REJ") := by
  cases hb : s.bst
  case ar =>
    cases hr : s.rej
    · simp only [execTxRej, hb, hr]
    · exact absurd (by simp only [rowIn, Instr.event, selectedRow, hb, hr, if_true]) h
  all_goals simp only [execTxRej, hb]

/-- TX.FOREIGN is the row of TX outside `AR`, so it stops in `AR` (R141; log 5). -/
theorem execTxForeign_of_rowIn_ne {s : State} (h : rowIn s .txForeign ≠ .txForeign) :
    execTxForeign s = .refused (.notSelected "TX.FOREIGN") := by
  cases hb : s.bst
  case ar => simp only [execTxForeign, hb]
  all_goals exact absurd (by simp only [rowIn, Instr.event, selectedRow, hb]) h

/-- START.W is selected in every state (R132). -/
theorem rowIn_startW (s : State) : rowIn s .startW = .startW := by
  simp [rowIn, Instr.event, selectedRow, ownAddress]

/-- START.R is selected in every state (R133). -/
theorem rowIn_startR (s : State) : rowIn s .startR = .startR := by
  simp [rowIn, Instr.event, selectedRow, ownAddress]

/-- Settles O45: LOOP's rows by `lpc`, START's by the address, RX's and TX's by `bst` and `rej`. -/
theorem unselectedRowsStop : Obligations.UnselectedRowsStop := by
  intro i s hi hrow
  have loopCase : ∀ p : SeqStep, loopRow s.lpc ≠ loopRow p →
      ∃ row : String, exec (loopRow p) s = .refused (.notSelected row) :=
    fun _ hne => exec_loopRow_of_lpc_ne (ne_of_apply_ne loopRow hne)
  cases i with
  | startW => exact absurd (rowIn_startW s) hrow
  | startR => exact absurd (rowIn_startR s) hrow
  | startMiss a d => exact ⟨_, execStartMiss_of_rowIn_ne hrow⟩
  | rxIndex v => exact ⟨_, execRxIndex_of_rowIn_ne hrow⟩
  | rxData b => exact ⟨_, execRxData_of_rowIn_ne hrow⟩
  | rxIgnored b => exact ⟨_, execRxIgnored_of_rowIn_ne hrow⟩
  | txRej => exact ⟨_, execTxRej_of_rowIn_ne hrow⟩
  | txForeign => exact ⟨_, execTxForeign_of_rowIn_ne hrow⟩
  | lKick => exact loopCase .kick hrow
  | lSnap => exact loopCase .snap hrow
  | lSample => exact loopCase .sample hrow
  | lStrd => exact loopCase .strd hrow
  | lStwr => exact loopCase .stwr hrow
  | lPhase => exact loopCase .phase hrow
  | lDrive => exact loopCase .drive hrow
  | lDelay => exact loopCase .delay hrow
  | tick | start | rx | tx | nack | stop | loop | vent | reset | pattern | outmask =>
    exact absurd rfl hi

end Sys2Proof.Machine

namespace Sys2Proof.Machine

/-! The tick source (R120 to R124): what TICK leaves in the counter, and that no other row but RESET
reaches it. -/

/-- TICK in every state: it writes the counter and raises nothing (R120). -/
theorem exec_tick (s : State) :
    exec .tick s = .next { s with tick := nextTick s.tick, obs := {} } := rfl

/-- A run goes on from the next state of its first operation. -/
theorem execAll_cons_of_next {i : Instr} {s t : State} (is : List Instr) (h : exec i s = .next t) :
    execAll (i :: is) s = execAll is t := by
  simp only [execAll, h]

/-- `TICKS n+1` is TICK and then `TICKS n` (R107). -/
theorem execAll_pseudoTicks_succ (n : Nat) (s : State) :
    execAll (pseudoTicks (n + 1)) s =
      execAll (pseudoTicks n) { s with tick := nextTick s.tick, obs := {} } :=
  execAll_cons_of_next (pseudoTicks n) (exec_tick s)

/-- Every row but TICK and RESET keeps the counter (R120: "the only mutator"). -/
theorem RowEffect.tick_kept {s t : State} {r : Instr} (he : RowEffect s r t)
    (htick : r ≠ .tick) (hr : isReset r = false) : t.tick = s.tick := by
  cases he with
  | tick => exact absurd rfl htick
  | reset c => cases hr
  | _ => rfl

/-- TICK is the one operation whose row is TICK: it shares its word with no other (R100). -/
theorem eq_tick_of_rowIn_eq_tick {s : State} {i : Instr} (h : rowIn s i = .tick) : i = .tick := by
  have hev : i.event = .tick := by rw [← event_rowIn s i, h]; rfl
  cases i with
  | tick => rfl
  | _ => cases hev

/-- Settles O1: TICK writes `nextTick` and nothing else but its empty outputs. -/
theorem tickAdvancesCounterModuloPeriod : Obligations.TickAdvancesCounterModuloPeriod :=
  fun s => ⟨_, exec_tick s, nextTick_toNat s.tick, rfl⟩

/-- Settles O2, by induction on the number of TICKs, from any counter in range. -/
theorem ticksAccumulateModuloPeriod : Obligations.TicksAccumulateModuloPeriod := by
  intro n
  induction n with
  | zero => exact fun s hs => ⟨s, rfl, (Nat.mod_eq_of_lt hs).symm, rfl⟩
  | succ n ih =>
    intro s _
    have hnext : (nextTick s.tick).toNat = (s.tick.toNat + 1) % 10 := nextTick_toNat s.tick
    obtain ⟨t, hrun, htick, hframe⟩ :=
      ih { s with tick := nextTick s.tick, obs := {} } (by simp only [hnext]; omega)
    refine ⟨t, (execAll_pseudoTicks_succ n s).trans hrun, ?_, hframe⟩
    simp only [hnext] at htick
    omega

/-- Settles O60: TICK's effect, and no row but TICK and RESET moves the counter. -/
theorem tickIsTheOnlyMutatorOfTheCounter : Obligations.TickIsTheOnlyMutatorOfTheCounter := by
  intro s _
  refine ⟨⟨_, exec_tick s, nextTick_toNat s.tick, rfl, rfl⟩, fun i t h hne => ?_⟩
  by_contra hno
  obtain ⟨hi, hr⟩ := not_or.1 hno
  have hrow : rowIn s i ≠ .tick := fun heq => hi (eq_tick_of_rowIn_eq_tick heq)
  have hrowReset : isReset (rowIn s i) = false :=
    (isReset_rowIn s i).trans (Bool.eq_false_of_not_eq_true hr)
  exact hne ((exec_effect i s t h).tick_kept hrow hrowReset)

end Sys2Proof.Machine

namespace Sys2Proof.Machine

/-! The relay pattern (R160 to R166): over the phases of one stage the three branches of R160 say that
relay `k + 1` is on exactly while `phase + k * S < level`. -/

/-- The three branches of R160 as one condition per relay, for every stage size. -/
theorem relayPattern_eq_heaterMask {S phase : Nat} (level : Nat) (hp : phase < S) :
    relayPattern S level phase =
      heaterMask (decide (phase + 2 * S < level)) (decide (phase + S < level))
        (decide (phase < level)) := by
  unfold relayPattern
  split_ifs with h2 h1
  · rw [decide_eq_true (by omega : phase + S < level), decide_eq_true (by omega : phase < level)]
    simp only [Nat.lt_sub_iff_add_lt]
  · rw [decide_eq_false (by omega : ¬phase + 2 * S < level),
      decide_eq_true (by omega : phase < level)]
    simp only [Nat.lt_sub_iff_add_lt]
  · rw [decide_eq_false (by omega : ¬phase + 2 * S < level),
      decide_eq_false (by omega : ¬phase + S < level)]

/-- Relay `k + 1` is on exactly while `phase + k * S < level`. -/
theorem relayPattern_getLsbD {S phase k : Nat} (level : Nat) (hp : phase < S) (hk : k < 3) :
    (relayPattern S level phase).getLsbD k = decide (phase + k * S < level) := by
  obtain ⟨h1, h2, h3⟩ := heaterMask_bits (decide (phase + 2 * S < level))
    (decide (phase + S < level)) (decide (phase < level))
  rw [relayPattern_eq_heaterMask level hp]
  interval_cases k
  · simpa using h1
  · simpa using h2
  · exact h3

/-- Settles O21: `phase < min (level - k*S) S` is `phase + k*S < level` for a phase below `S`. -/
theorem patternHasClosedForm : Obligations.PatternHasClosedForm := by
  intro S level phase _ hp k hk
  rw [relayPattern_getLsbD level hp hk, decide_eq_true_iff]
  omega

/-- The relays a mask `{r3, r2, r1}` turns on. -/
theorem relaysOn_heaterMask (r3 r2 r1 : Bool) :
    relaysOn (heaterMask r3 r2 r1) = r1.toNat + r2.toNat + r3.toNat := by
  obtain ⟨h1, h2, h3⟩ := heaterMask_bits r3 r2 r1
  rw [relaysOn, h1, h2, h3]

/-- A mask `{r3, r2, r1}` is staged when each relay is on only with the one before it (R165 item 1). -/
theorem staged_heaterMask {r3 r2 r1 : Bool} (h32 : r3 = true → r2 = true)
    (h21 : r2 = true → r1 = true) :
    staged (heaterMask r3 r2 r1) = true := by
  revert r3 r2 r1; decide

/-- The relays on in one phase of the period. -/
theorem relaysOn_relayPattern {S phase : Nat} (level : Nat) (hp : phase < S) :
    relaysOn (relayPattern S level phase) =
      (decide (phase < level)).toNat + (decide (phase + S < level)).toNat +
        (decide (phase + 2 * S < level)).toNat := by
  rw [relayPattern_eq_heaterMask level hp, relaysOn_heaterMask]

/-- Every pattern is staged (R165 item 1). -/
theorem staged_relayPattern {S phase : Nat} (level : Nat) (hp : phase < S) :
    staged (relayPattern S level phase) = true := by
  rw [relayPattern_eq_heaterMask level hp]
  exact staged_heaterMask (by simp only [decide_eq_true_iff]; omega)
    (by simp only [decide_eq_true_iff]; omega)

/-- A relay that is on while `phase + c < level` is on for `min (level - c) S` of the first `S` phases. -/
theorem sum_range_decide_add_lt (c level S : Nat) :
    ((List.range S).map fun phase => (decide (phase + c < level)).toNat).sum =
      min (level - c) S := by
  induction S with
  | zero => simp
  | succ S ih =>
    rw [List.range_succ, List.map_append, List.sum_append, ih]
    by_cases h : S + c < level <;> simp [h] <;> omega

/-- Settles O22: stage by stage the duties are `min (level - k*S) S`, which sum to the level. -/
theorem patternDutySumsToLevel : Obligations.PatternDutySumsToLevel := by
  intro S level hl
  have hphase : ∀ phase ∈ List.range S, relaysOn (relayPattern S level phase) =
      (decide (phase + 0 < level)).toNat + (decide (phase + S < level)).toNat +
        (decide (phase + 2 * S < level)).toNat :=
    fun phase hmem => relaysOn_relayPattern level (List.mem_range.1 hmem)
  rw [List.map_congr_left hphase, List.sum_map_add, List.sum_map_add,
    sum_range_decide_add_lt, sum_range_decide_add_lt, sum_range_decide_add_lt]
  omega

/-- A relay that is on stays on at a higher level and an earlier phase. -/
theorem toNat_decide_add_lt_mono {level level' phase phase' : Nat} (c : Nat)
    (hl : level ≤ level') (hp : phase' ≤ phase) :
    (decide (phase + c < level)).toNat ≤ (decide (phase' + c < level')).toNat :=
  Bool.toNat_le_toNat (Bool.le_iff_imp.2 (by simp only [decide_eq_true_iff]; omega))

/-- Settles O23: relay by relay, each is on in the second pattern where it is on in the first. -/
theorem patternMonotoneInLevelAndPhase : Obligations.PatternMonotoneInLevelAndPhase := by
  intro S level level' phase phase' hl _ hp hS
  rw [relaysOn_relayPattern level hS, relaysOn_relayPattern level' (hp.trans_lt hS)]
  exact Nat.add_le_add (Nat.add_le_add (toNat_decide_add_lt_mono 0 hl hp)
    (toNat_decide_add_lt_mono S hl hp)) (toNat_decide_add_lt_mono (2 * S) hl hp)

/-- The relay that is on in one phase of the period and off in another is the one the level's stage names. -/
theorem eq_div_of_lt_of_le {S level p q j : Nat} (hq : q < S) (hon : p + j * S < level)
    (hoff : level ≤ q + j * S) : j = level / S := by
  refine (Nat.div_eq_of_lt_le (by omega) ?_).symm
  rw [Nat.succ_mul]
  omega

/-- Settles O24: only relay `level / S` can differ between two phases of one period. -/
theorem patternPulsesAtMostOneRelay : Obligations.PatternPulsesAtMostOneRelay := by
  intro S level _
  refine ⟨fun phase hp => staged_relayPattern level hp, level / S, fun p q j hp hq hne => ?_⟩
  have hj : j < 3 := by
    by_contra hj
    exact hne (by rw [BitVec.getLsbD_of_ge _ _ (by omega), BitVec.getLsbD_of_ge _ _ (by omega)])
  rw [relayPattern_getLsbD level hp hj, relayPattern_getLsbD level hq hj, ne_eq,
    decide_eq_decide] at hne
  by_cases hon : p + j * S < level
  · exact eq_div_of_lt_of_le hq hon (by omega)
  · exact eq_div_of_lt_of_le (p := q) hp (by omega) (by omega)

end Sys2Proof.Machine

namespace Sys2Proof.Machine

/-! PATTERN and OUTMASK on this hardware (R162, R163): a value exactly on the domain. -/

/-- PATTERN on the domain (R160, R162). -/
theorem pattern?_of_le {level phase : Nat} (hl : level ≤ 30) (hp : phase ≤ 9) :
    pattern? level phase = some (relayPattern 10 level phase) :=
  if_pos ((inPatternDomain_iff level phase).2 ⟨hl, hp⟩)

/-- PATTERN has no value outside the domain (R162). -/
theorem pattern?_eq_none {level phase : Nat} (h : 30 < level ∨ 9 < phase) :
    pattern? level phase = none :=
  if_neg fun hd => by
    have := (inPatternDomain_iff level phase).1 hd
    omega

/-- Settles O20: each branch of R160, read off the conditions of its three relays. -/
theorem patternFollowsItsThreeBranches : Obligations.PatternFollowsItsThreeBranches := by
  intro level phase hl hp
  have hbit : ∀ k : Nat, k < 3 →
      (relayPattern 10 level phase).getLsbD k = decide (phase + k * 10 < level) :=
    fun _ hk => relayPattern_getLsbD level hp hk
  refine ⟨_, pattern?_of_le hl (by omega), fun h20 => ?_, fun h10 h20 => ?_, fun h10 => ?_⟩ <;>
    simp only [hbit 0 (by decide), hbit 1 (by decide), hbit 2 (by decide), decide_eq_true_iff,
      decide_eq_false_iff_not] <;> omega

/-- PATTERN of an argument word on the domain. -/
theorem exec_pattern_of_some {level : Level} {phase : BitVec 4} {h : HeaterMask} (s : State)
    (hv : pattern? level.toNat phase.toNat = some h) :
    exec (.pattern level phase) s = .next { s with obs := { heater := some h } } := by
  simp only [exec, execPattern, hv]; rfl

/-- PATTERN of an argument word outside the domain. -/
theorem exec_pattern_of_none {level : Level} {phase : BitVec 4} (s : State)
    (hv : pattern? level.toNat phase.toNat = none) :
    exec (.pattern level phase) s = .refused .outsideDomain := by
  simp only [exec, execPattern, hv]

/-- Settles O25: the value on the domain is the closed form of O21 at `S = 10`. -/
theorem patternWordEvaluates : Obligations.PatternWordEvaluates := by
  intro level phase s
  refine ⟨fun hl hp => ?_, fun hout => exec_pattern_of_none s (pattern?_eq_none hout)⟩
  exact ⟨_, exec_pattern_of_some s (pattern?_of_le hl hp),
    patternHasClosedForm 10 level.toNat phase.toNat hl (by omega)⟩

/-- OUTMASK on the domain, whatever the ventilation: the auxiliary bits pass, the heater bits are PATTERN's or 0 (R163, R164). -/
theorem outmask?_of_le {level phase : Nat} (a b en : Bool) (hl : level ≤ 30) (hp : phase ≤ 9) :
    outmask? level phase a b en =
      some (outputMask b a (if en then relayPattern 10 level phase else 0b000#3)) := by
  cases en
  · exact outmask?_disabled level phase a b
  · exact outmask?_enabled level phase a b ((inPatternDomain_iff level phase).2 ⟨hl, hp⟩)

/-- OUTMASK with the ventilation active has no value outside the domain of PATTERN (R162, R163). -/
theorem outmask?_eq_none {level phase : Nat} (a b : Bool) (h : 30 < level ∨ 9 < phase) :
    outmask? level phase a b true = none := by
  simp only [outmask?, if_true, pattern?_eq_none h, Option.map_none]

/-- OUTMASK of an argument word where it has a value. -/
theorem exec_outmask_of_some {en auxB auxA : Bool} {level : Level} {phase : BitVec 4}
    {m : OutMask} (s : State) (hv : outmask? level.toNat phase.toNat auxA auxB en = some m) :
    exec (.outmask en auxB auxA level phase) s = .next { s with obs := { mask := some m } } := by
  simp only [exec, execOutmask, hv]; rfl

/-- OUTMASK of an argument word where it has none. -/
theorem exec_outmask_of_none {en auxB auxA : Bool} {level : Level} {phase : BitVec 4}
    (s : State) (hv : outmask? level.toNat phase.toNat auxA auxB en = none) :
    exec (.outmask en auxB auxA level phase) s = .refused .outsideDomain := by
  simp only [exec, execOutmask, hv]

/-- Settles O26: the mask is `{auxB, auxA, h}` with `h` PATTERN's value or 0 by the interlock. -/
theorem outmaskWordAppliesInterlock : Obligations.OutmaskWordAppliesInterlock := by
  intro en auxB auxA level phase s
  refine ⟨fun hl hp => ?_, ?_⟩
  · obtain ⟨hB, hA, hheater, _⟩ := outputMask_bits auxB auxA
      (if en then relayPattern 10 level.toNat phase.toNat else 0b000#3)
    refine ⟨_, exec_outmask_of_some s (outmask?_of_le auxA auxB en hl hp), hB, hA, ?_, ?_⟩ <;>
      rintro rfl
    · exact hheater
    · exact (pattern?_of_le hl hp).trans (congrArg some hheater.symm)
  · rintro rfl hout
    exact exec_outmask_of_none s (outmask?_eq_none auxA auxB hout)

/-- Settles O35: L.DRIVE and LOOP at DRIVE both ask OUTMASK, which has no value there. -/
theorem driveStopsOutsideTheDomain : Obligations.DriveStopsOutsideTheDomain := by
  intro s hlpc hen hout
  have hdrive : driveOp s = .refused .outsideDomain := by
    simp only [driveOp, hen, outmask?_eq_none s.auxA s.auxB hout]
  have hloop : exec .loop s = .refused .outsideDomain := by
    simp only [exec, execLoop, hlpc, hdrive]
  exact ⟨(exec_loopRow_of_lpc hlpc).trans hloop, hloop⟩

end Sys2Proof.Machine

namespace Sys2Proof.Machine

/-! The machine's invariant (R41, R37 to R39): the restart establishes it, every row keeps it, and so
does every step. -/

/-- Every value of PATTERN is staged (R165 item 1). -/
theorem staged_of_pattern?_eq_some {level phase : Nat} {h : HeaterMask}
    (hv : pattern? level phase = some h) : staged h = true := by
  obtain ⟨hd, hh⟩ := Option.ite_none_right_eq_some.1 hv
  have hp := ((inPatternDomain_iff level phase).1 hd).2
  cases hh
  exact staged_relayPattern level (Nat.lt_succ_of_le hp)

/-- Every value of OUTMASK has staged heater bits (R41 item 6). -/
theorem staged_heaterBits_of_outmask?_eq_some {level phase : Nat} {a b en : Bool} {m : OutMask}
    (hm : outmask? level phase a b en = some m) : staged (heaterBits m) = true := by
  obtain ⟨h, hv, rfl⟩ := Option.map_eq_some_iff.1 hm
  obtain ⟨_, _, hheater, _⟩ := outputMask_bits b a h
  rw [hheater]
  cases en
  · exact staged_of_pattern?_eq_some (level := 0) (phase := 0) hv
  · exact staged_of_pattern?_eq_some (level := level) (phase := phase) hv

/-- The period is not empty (R7), so 0 is a phase. -/
theorem period_pos : 0 < Config.period := by decide

/-- TICK leaves the counter in range (R41 item 1, R124). -/
theorem nextTick_lt_period (t : Byte) : (nextTick t).toNat < Config.period :=
  (nextTick_toNat t).trans_lt (Nat.mod_lt _ period_pos)

/-- L.PHASE samples the counter or takes 0 (R187), both in range (R41 item 5). -/
theorem sampledPhase_lt_period (en : Bool) {tick : Byte} (h : tick.toNat < Config.period) :
    (if en then tick else 0#8).toNat < Config.period := by
  cases en
  · exact period_pos
  · exact h

/-- A restart leaves a state of the invariant, from any state whatever (R250 to R252). -/
theorem restart_inv (s : State) (c : Bool) : (s.restart c).Inv := by
  have hlevel : 0 < Config.levelLimit := by decide
  have hout : staged (heaterBits 0#5) = true := by decide
  exact ⟨period_pos, hlevel, fun _ => rfl, period_pos, hout, rfl, rfl, rfl⟩

/-- Every row keeps the invariant. -/
theorem RowEffect.keeps_inv {s t : State} {r : Instr} (he : RowEffect s r t) (hs : s.Inv) :
    t.Inv := by
  obtain ⟨htick, hlevel, hidle, hph, hout, hmask, hwdt, hcause⟩ := hs
  cases he with
  | tick => exact ⟨nextTick_lt_period s.tick, hlevel, hidle, hph, hout, hmask, hwdt, hcause⟩
  | startW => exact ⟨htick, hlevel, nofun, hph, hout, hmask, hwdt, hcause⟩
  | startR => exact ⟨htick, hlevel, nofun, hph, hout, hmask, hwdt, hcause⟩
  | rxIndexOut => exact ⟨htick, hlevel, nofun, hph, hout, hmask, hwdt, hcause⟩
  | startMiss | rxIndexIn | nackRead | stop =>
    exact ⟨htick, hlevel, fun _ => rfl, hph, hout, hmask, hwdt, hcause⟩
  | lSnapValid _ hv =>
    exact ⟨htick, of_decide_eq_true hv, hidle, hph, hout, rfl, hwdt, hcause⟩
  | lSnapInvalid => exact ⟨htick, hlevel, hidle, hph, hout, rfl, hwdt, hcause⟩
  | lPhase =>
    exact ⟨htick, hlevel, hidle, sampledPhase_lt_period s.en htick, hout, hmask, hwdt, hcause⟩
  | lDrive _ m hm =>
    exact ⟨htick, hlevel, hidle, hph, staged_heaterBits_of_outmask?_eq_some hm, hmask, hwdt, hcause⟩
  | reset c => exact restart_inv s c
  | _ => exact ⟨htick, hlevel, hidle, hph, hout, hmask, hwdt, hcause⟩

/-- A step that answers a next state has executed the operation its word decodes to (R66, R71). -/
theorem exists_decode_of_step_eq_next {s t : State} (h : step s = .next t) :
    ∃ i : Instr, decode s.nextWord = .ok i ∧ exec i s.consumeWord = .next t := by
  unfold step at h
  split at h
  · exact ⟨_, ‹_›, h⟩
  · cases h

/-- Settles O41: the word taken is no part of the invariant, and the row its operation is keeps it. -/
theorem everyStepKeepsTheInvariant : Obligations.EveryStepKeepsTheInvariant := by
  intro s t ⟨htick, hlevel, hidle, hph, hout, hmask, hwdt, hcause⟩ h
  obtain ⟨i, -, hexec⟩ := exists_decode_of_step_eq_next h
  have htaken : s.consumeWord.Inv := ⟨htick, hlevel, hidle, hph, hout, hmask, hwdt, hcause⟩
  exact (exec_effect i s.consumeWord t hexec).keeps_inv htaken

end Sys2Proof.Machine

namespace Sys2Proof.Machine

/-! The control sequencer (R181 to R190): what LOOP does at each step of the order. By
`exec_loopRow_of_lpc` the row that `lpc` names does the same. -/

/-- LOOP at KICK (R181). -/
theorem exec_loop_kick {s : State} (h : s.lpc = .kick) :
    exec .loop s = .next { s with lpc := .snap, obs := {} } := by
  simp only [exec, execLoop, h, kickOp, State.advanceLpc, quiet_lpc, nextStep]; rfl

/-- LOOP at SNAP with a valid request (R182, R192). -/
theorem exec_loop_snap_valid {s : State} (h : s.lpc = .snap)
    (hv : validLevel (controlLevel s.control) = true) :
    exec .loop s = .next
      { s with
        level := controlLevel s.control, auxA := controlAuxA s.control,
        auxB := controlAuxB s.control, irqMask := false, lpc := .sample, obs := {} } := by
  simp only [exec, execLoop, h, snapOp_valid s hv, nextStep]

/-- LOOP at SNAP with an invalid request (R182, R183). -/
theorem exec_loop_snap_invalid {s : State} (h : s.lpc = .snap)
    (hv : validLevel (controlLevel s.control) = false) :
    exec .loop s = .next
      { s with
        control := controlByte s.auxB s.auxA s.level, irqMask := false, lpc := .sample,
        obs := { raised := some ⟨.invalidRequest, some s.control⟩ } } := by
  simp only [exec, execLoop, h, snapOp_invalid s hv, nextStep]

/-- LOOP at SAMPLE (R184). -/
theorem exec_loop_sample {s : State} (h : s.lpc = .sample) :
    exec .loop s = .next { s with en := !s.ventN, lpc := .strd, obs := {} } := by
  simp only [exec, execLoop, h, sampleOp, State.advanceLpc, quiet_lpc, nextStep]; rfl

/-- LOOP at STRD (R185). -/
theorem exec_loop_strd {s : State} (h : s.lpc = .strd) :
    exec .loop s = .next { s with stmp := s.status, lpc := .stwr, obs := {} } := by
  simp only [exec, execLoop, h, statusReadOp, State.advanceLpc, quiet_lpc, nextStep]; rfl

/-- LOOP at STWR (R186). -/
theorem exec_loop_stwr {s : State} (h : s.lpc = .stwr) :
    exec .loop s =
      .next { s with status := statusUpdate s.en s.stmp, lpc := .phase, obs := {} } := by
  simp only [exec, execLoop, h, statusWriteOp_eq, nextStep]

/-- LOOP at PHASE (R187). -/
theorem exec_loop_phase {s : State} (h : s.lpc = .phase) :
    exec .loop s =
      .next { s with ph := if s.en then s.tick else 0#8, lpc := .drive, obs := {} } := by
  simp only [exec, execLoop, h, phaseOp, State.advanceLpc, quiet_lpc, nextStep]; rfl

/-- LOOP at DRIVE with a mask to drive (R188). -/
theorem exec_loop_drive {s : State} {m : OutMask} (h : s.lpc = .drive)
    (hm : outmask? s.level.toNat s.ph.toNat s.auxA s.auxB s.en = some m) :
    exec .loop s = .next { s with out := m, lpc := .delay, obs := {} } := by
  simp only [exec, execLoop, h, driveOp_eq s m hm, nextStep]

/-- LOOP at DELAY (R189). -/
theorem exec_loop_delay {s : State} (h : s.lpc = .delay) :
    exec .loop s = .next { s with lpc := .kick, obs := {} } := by
  simp only [exec, execLoop, h, delayOp, State.advanceLpc, quiet_lpc, nextStep]; rfl

/-- Where `lpc` names a row, that row answers what LOOP answers (R108). -/
theorem exec_row_and_loop {s t : State} {p : SeqStep} (h : s.lpc = p)
    (ht : exec .loop s = .next t) : exec (loopRow p) s = .next t ∧ exec .loop s = .next t :=
  ⟨(exec_loopRow_of_lpc h).trans ht, ht⟩

/-- A CONTROL byte has an invalid level exactly when its bits 5:0, as a number, are 31 or more (R25, R101). -/
theorem validLevel_controlLevel_eq_false_iff (b : Byte) :
    validLevel (controlLevel b) = false ↔ 31 ≤ b.toNat % 64 := by
  rw [← Bool.not_eq_true, validLevel_controlLevel_iff, Nat.not_lt]

/-- OUTMASK where L.DRIVE has a value to drive: the interlock needs no domain (R162, R163). -/
theorem outmask?_of_disabled_or_le {level phase : Nat} (a b : Bool) {en : Bool}
    (h : en = false ∨ level ≤ 30 ∧ phase ≤ 9) :
    outmask? level phase a b en =
      some (outputMask b a (if en then relayPattern 10 level phase else 0b000#3)) := by
  rcases h with rfl | ⟨hl, hp⟩
  · exact outmask?_disabled level phase a b
  · exact outmask?_of_le a b en hl hp

/-- Settles O27: the step equations of KICK and DELAY. -/
theorem kickAndDelayOnlyAdvance : Obligations.KickAndDelayOnlyAdvance := by
  refine fun s => ⟨fun h => ?_, fun h => ?_⟩
  · obtain ⟨hrow, hloop⟩ := exec_row_and_loop h (exec_loop_kick h)
    exact ⟨_, hrow, hloop, rfl⟩
  · obtain ⟨hrow, hloop⟩ := exec_row_and_loop h (exec_loop_delay h)
    exact ⟨_, hrow, hloop, rfl⟩

/-- Settles O28: the step equation of SNAP, its fields as numbers. -/
theorem snapshotAcceptsValidRequest : Obligations.SnapshotAcceptsValidRequest := by
  intro s h hlevel
  have hvalid := (validLevel_controlLevel_iff s.control).2 hlevel
  obtain ⟨hrow, hloop⟩ := exec_row_and_loop h (exec_loop_snap_valid h hvalid)
  obtain ⟨hl, hA, hB⟩ := controlFields_toNat s.control
  exact ⟨_, hrow, hloop, hl, hA, hB, rfl⟩

/-- Settles O29: the step equation of SNAP, the echo byte as a number. -/
theorem snapshotEchoesLastGoodRequest : Obligations.SnapshotEchoesLastGoodRequest := by
  intro s h hlevel
  have hinvalid := (validLevel_controlLevel_eq_false_iff s.control).2 hlevel
  obtain ⟨hrow, hloop⟩ := exec_row_and_loop h (exec_loop_snap_invalid h hinvalid)
  exact ⟨_, hrow, hloop, controlByte_toNat s.auxB s.auxA s.level, rfl⟩

/-- Settles O30: the echo byte carries the local state, whose level is valid. -/
theorem echoIsAcceptedUnchanged : Obligations.EchoIsAcceptedUnchanged := by
  intro s t h hgood hlevel ht
  have hinvalid := (validLevel_controlLevel_eq_false_iff s.control).2 hlevel
  obtain ⟨hecho, -⟩ := exec_row_and_loop h (exec_loop_snap_invalid h hinvalid)
  cases hecho.symm.trans ht
  obtain ⟨hl, hA, hB⟩ := controlFields_controlByte s.auxB s.auxA s.level
  have hvalid : validLevel (controlLevel (controlByte s.auxB s.auxA s.level)) = true := by
    rw [hl]
    exact (validLevel_iff s.level).2 hgood
  exact ⟨_, (exec_loopRow_of_lpc (p := .snap) rfl).trans (exec_loop_snap_valid rfl hvalid),
    hl, hA, hB, rfl, rfl⟩

/-- Settles O31: the step equations of SAMPLE and STRD. -/
theorem sampleAndStatusReadLatchTheirInput : Obligations.SampleAndStatusReadLatchTheirInput := by
  refine fun s => ⟨fun h => ?_, fun h => ?_⟩
  · obtain ⟨hrow, hloop⟩ := exec_row_and_loop h (exec_loop_sample h)
    exact ⟨_, hrow, hloop, iff_of_eq (Bool.not_eq_true' s.ventN), rfl⟩
  · obtain ⟨hrow, hloop⟩ := exec_row_and_loop h (exec_loop_strd h)
    exact ⟨_, hrow, hloop, rfl, rfl⟩

/-- Settles O32: the step equation of STWR, its byte by `statusUpdate_bits`. -/
theorem statusWriteSetsHeaterDisabledFlag : Obligations.StatusWriteSetsHeaterDisabledFlag := by
  intro s h
  obtain ⟨hrow, hloop⟩ := exec_row_and_loop h (exec_loop_stwr h)
  obtain ⟨hhdis, hkept, -⟩ := statusUpdate_bits s.en s.stmp
  have hflag : statusHdis (statusUpdate s.en s.stmp) = true ↔ s.en = false := by
    rw [hhdis]
    exact iff_of_eq (Bool.not_eq_true' s.en)
  exact ⟨_, hrow, hloop, hflag, hkept, rfl⟩

/-- Settles O33: the step equation of PHASE. -/
theorem phaseStepTakesTheCounterOrZero : Obligations.PhaseStepTakesTheCounterOrZero := by
  intro s h
  obtain ⟨hrow, hloop⟩ := exec_row_and_loop h (exec_loop_phase h)
  exact ⟨_, hrow, hloop, fun hen => if_pos hen, fun hen => if_neg (Bool.eq_false_iff.1 hen), rfl⟩

/-- Settles O34: OUTMASK's bits, the heater bits by the closed form of O21 or 0 by the interlock. -/
theorem driveWritesOutputMask : Obligations.DriveWritesOutputMask := by
  intro s h hdrive
  have hmask := outmask?_of_disabled_or_le s.auxA s.auxB hdrive
  obtain ⟨hrow, hloop⟩ := exec_row_and_loop h (exec_loop_drive h hmask)
  obtain ⟨hB, hA, -, hheater⟩ := outputMask_bits s.auxB s.auxA
    (if s.en then relayPattern 10 s.level.toNat s.ph.toNat else 0b000#3)
  refine ⟨_, hrow, hloop, hB, hA, fun k hk => ?_, rfl⟩
  rw [hheater k hk]
  cases hen : s.en
  · simp
  · obtain ⟨hl, hp⟩ := hdrive.resolve_left (by simp [hen])
    simpa using patternHasClosedForm 10 s.level.toNat s.ph.toNat hl (by omega) k hk

end Sys2Proof.Machine

namespace Sys2Proof.Machine

/-! The order of the sequencer and the completion of every decoded word (R190; file 93, part 1). -/

/-- L.DRIVE has a value to drive without the ventilation or on the domain of PATTERN (R162, R163). -/
theorem canDrive_iff (s : State) :
    s.canDrive = true ↔ s.en = false ∨ s.level.toNat ≤ 30 ∧ s.ph.toNat ≤ 9 := by
  rw [State.canDrive, Bool.or_eq_true, Bool.not_eq_true', inPatternDomain_iff]

/-- The invariant keeps level and phase in the domain of PATTERN (R41 items 2 and 5, R162). -/
theorem State.Inv.canDrive {s : State} (hs : s.Inv) : s.canDrive = true :=
  (canDrive_iff s).2 (.inr ⟨Nat.le_of_lt_succ hs.level_lt, Nat.le_of_lt_succ hs.ph_lt⟩)

/-- LOOP completes where L.DRIVE, if it is due, has a value to drive (R190). -/
theorem exists_exec_loop_eq_next {s : State} (h : s.lpc = .drive → s.canDrive = true) :
    ∃ t : State, exec .loop s = .next t := by
  cases hp : s.lpc
  case drive =>
    exact ⟨_, exec_loop_drive hp
      (outmask?_of_disabled_or_le s.auxA s.auxB ((canDrive_iff s).1 (h hp)))⟩
  all_goals
    simp only [exec, execLoop, hp]
    exact ⟨_, rfl⟩

/-- What each row leaves in `lpc`: LOOP's rows the next name of the order, RESET the first, every other row the name it found (R34, R190, R252). -/
theorem RowEffect.lpc_cases {s t : State} {r : Instr} (he : RowEffect s r t) :
    (r.event = .loop ∧ t.lpc = nextStep s.lpc) ∨ (isReset r = true ∧ t.lpc = .kick) ∨
      (r.event ≠ .loop ∧ t.lpc = s.lpc) := by
  cases he with
  | lKick h | lSnapValid h | lSnapInvalid h | lSample h | lStrd h | lStwr h | lPhase h
  | lDrive h | lDelay h => exact .inl ⟨rfl, by rw [h]; rfl⟩
  | reset c => exact .inr (.inl ⟨rfl, rfl⟩)
  | _ => exact .inr (.inr ⟨nofun, rfl⟩)

/-- What each operation leaves in `lpc`. -/
theorem lpc_cases_of_exec {i : Instr} {s t : State} (h : exec i s = .next t) :
    (i.event = .loop ∧ t.lpc = nextStep s.lpc) ∨ (isReset i = true ∧ t.lpc = .kick) ∨
      (i.event ≠ .loop ∧ t.lpc = s.lpc) := by
  have hrow := (exec_effect i s t h).lpc_cases
  rwa [event_rowIn, isReset_rowIn] at hrow

/-- LOOP moves `lpc` to the next name of the order (R190). -/
theorem lpc_of_exec_loop {s t : State} (h : exec .loop s = .next t) : t.lpc = nextStep s.lpc := by
  obtain ⟨-, hlpc⟩ | ⟨hreset, -⟩ | ⟨hne, -⟩ := lpc_cases_of_exec h
  · exact hlpc
  · cases hreset
  · exact absurd rfl hne

/-- Settles O36: LOOP's completion, and `lpc` row by row. -/
theorem sequencerFollowsItsFixedOrder : Obligations.SequencerFollowsItsFixedOrder := by
  refine ⟨fun s hdrive => ?_, fun i s t h => lpc_cases_of_exec h⟩
  obtain ⟨t, ht⟩ := exists_exec_loop_eq_next hdrive
  exact ⟨t, ht, lpc_of_exec_loop ht⟩

/-- A plain event decodes to its operation (R104). -/
theorem plainEvent_eq_ok {p : Byte} {i j : Instr} (h : plainEvent p i = .ok j) : j = i := by
  unfold plainEvent at h
  split at h <;> cases h
  rfl

/-- A one-bit event decodes to its operation with some bit (R104). -/
theorem oneBitEvent_eq_ok {p : Byte} {f : Bool → Instr} {j : Instr}
    (h : oneBitEvent p f = .ok j) : ∃ b : Bool, j = f b := by
  unfold oneBitEvent at h
  split at h <;> cases h
  exact ⟨_, rfl⟩

/-- An event word decodes to an event, whose operands the spec all admits (R100). -/
theorem event_and_wellFormed_of_decodeEvent {w : EventWord} {i : Instr}
    (h : decodeEvent w = .ok i) : i.event = i ∧ i.wellFormed = true := by
  unfold decodeEvent at h
  split at h
  case h_2 | h_3 => cases h; exact ⟨rfl, rfl⟩
  case h_8 | h_9 => obtain ⟨b, rfl⟩ := oneBitEvent_eq_ok h; exact ⟨rfl, rfl⟩
  case h_10 => cases h
  all_goals cases plainEvent_eq_ok h; exact ⟨rfl, rfl⟩

/-- A word decodes to an event with operands the spec admits (R100, R104, R110). -/
theorem event_and_wellFormed_of_decode {w : TraceWord} {i : Instr} (h : decode w = .ok i) :
    i.event = i ∧ i.wellFormed = true := by
  cases w with
  | event w => exact event_and_wellFormed_of_decodeEvent h
  | pattern w =>
    simp only [decode, decodePattern] at h
    split at h <;> cases h
    exact ⟨rfl, ‹_›⟩
  | outmask w =>
    simp only [decode, decodeOutmask] at h
    split at h <;> cases h
    exact ⟨rfl, ‹_›⟩
  | malformed => cases h

/-- Under the invariant every event with admitted operands completes. -/
theorem exists_exec_event_eq_next {i : Instr} {s : State} (hs : s.Inv) (hi : i.event = i)
    (hw : i.wellFormed = true) : ∃ t : State, exec i s = .next t := by
  cases i with
  | loop => exact exists_exec_loop_eq_next fun _ => hs.canDrive
  | pattern l p => exact ⟨_, exec_pattern_of_some s (if_pos hw)⟩
  | outmask e b a l p =>
    obtain ⟨hl, hp⟩ := (inPatternDomain_iff l.toNat p.toNat).1 hw
    exact ⟨_, exec_outmask_of_some s (outmask?_of_le a b e hl hp)⟩
  | tick | start | rx | tx | nack | stop | vent | reset => exact ⟨_, rfl⟩
  | _ => cases hi

/-- With no event waiting a step is LOOP (R190; log 1). -/
theorem step_of_trace_nil {s : State} (h : s.trace = []) : step s = exec .loop s.consumeWord := by
  simp only [step, State.nextWord, h]; rfl

/-- Taking the oldest waiting event keeps the invariant, which says nothing of the trace. -/
theorem consumeWord_inv {s : State} (hs : s.Inv) : s.consumeWord.Inv := by
  obtain ⟨htick, hlevel, hidle, hph, hout, hmask, hwdt, hcause⟩ := hs
  exact ⟨htick, hlevel, hidle, hph, hout, hmask, hwdt, hcause⟩

/-- Settles O43: what a word decodes to is an event with admitted operands, and so is LOOP. -/
theorem everyDecodedWordCompletes : Obligations.EveryDecodedWordCompletes := by
  refine fun s hs => ⟨fun w i hdecode => ?_, fun hnil => ?_⟩
  · obtain ⟨hevent, hwf⟩ := event_and_wellFormed_of_decode hdecode
    exact exists_exec_event_eq_next hs hevent hwf
  · rw [step_of_trace_nil hnil]
    exact exists_exec_event_eq_next (consumeWord_inv hs) rfl rfl

end Sys2Proof.Machine

namespace Sys2Proof.Machine

/-! Whole iterations and whole write transactions (R191, R193, R257). -/

/-- STATUS after the update: bit 0 is the enable line, the other bits are kept (R186, R191). -/
theorem statusUpdate_not (v : Bool) (b : Byte) :
    statusUpdate (!v) b = (b &&& 0xFE#8) ||| (BitVec.ofBool v).setWidth 8 := by
  revert v b; decide

/-- The phase does not reach OUTMASK without the ventilation (R163, D30). -/
theorem outmask?_sampledPhase (level : Nat) (tick : Byte) (a b en : Bool) :
    outmask? level (if en then tick else 0#8).toNat a b en = outmask? level tick.toNat a b en := by
  cases en <;> rfl

/-- The last six steps of an iteration, from SAMPLE to DELAY, with a mask to drive (R184 to R189). -/
theorem execAll_sample_to_delay {s : State} {m : OutMask} (h : s.lpc = .sample)
    (hm : outmask? s.level.toNat s.tick.toNat s.auxA s.auxB (!s.ventN) = some m) :
    execAll (List.replicate 6 .loop) s = .next
      { s with
        status := statusUpdate (!s.ventN) s.status, en := !s.ventN, stmp := s.status,
        ph := if !s.ventN then s.tick else 0#8, out := m, lpc := .kick, obs := {} } := by
  rw [← outmask?_sampledPhase] at hm
  calc execAll (List.replicate 6 .loop) s
    _ = _ := execAll_cons_of_next _ (exec_loop_sample h)
    _ = _ := execAll_cons_of_next _ (exec_loop_strd rfl)
    _ = _ := execAll_cons_of_next _ (exec_loop_stwr rfl)
    _ = _ := execAll_cons_of_next _ (exec_loop_phase rfl)
    _ = _ := execAll_cons_of_next _ (exec_loop_drive rfl hm)
    _ = _ := execAll_cons_of_next _ (exec_loop_delay rfl)

/-- An iteration is L.KICK, L.SNAP, and then the other six steps (R180). -/
theorem execAll_pseudoIter {s u : State} (h : s.lpc = .kick)
    (hsnap : exec .loop { s with lpc := .snap, obs := {} } = .next u) :
    execAll pseudoIter s = execAll (List.replicate 6 .loop) u :=
  (execAll_cons_of_next _ (exec_loop_kick h)).trans (execAll_cons_of_next _ hsnap)

/-- OUTMASK has a value for a valid level and a counter in range (R162, R163). -/
theorem exists_outmask?_eq_some {level phase : Nat} (a b en : Bool)
    (hl : level < Config.levelLimit) (hp : phase < Config.period) :
    ∃ m : OutMask, outmask? level phase a b en = some m :=
  ⟨_, outmask?_of_le a b en (Nat.le_of_lt_succ hl) (Nat.le_of_lt_succ hp)⟩

/-- Settles O37: L.SNAP by the validity of the request, then the other steps from SAMPLE on. -/
theorem iterationAchievesItsSummary : Obligations.IterationAchievesItsSummary := by
  intro s hs h
  obtain ⟨htick, hlevel, -, -, -, hmask, -, -⟩ := hs
  have hph : (if !s.ventN then s.tick else 0#8) = if s.ventN then 0#8 else s.tick := by
    cases s.ventN <;> rfl
  cases hv : validLevel (controlLevel s.control)
  · have hinvalid := (validLevel_controlLevel_eq_false_iff s.control).1 hv
    obtain ⟨m, hm⟩ := exists_outmask?_eq_some s.auxA s.auxB (!s.ventN) hlevel htick
    refine ⟨_, (execAll_pseudoIter h (exec_loop_snap_invalid rfl hv)).trans
      (execAll_sample_to_delay rfl hm), fun hlt => absurd hinvalid (Nat.not_le.2 hlt),
      fun _ => ⟨rfl, rfl, rfl, controlByte_toNat s.auxB s.auxA s.level⟩,
      statusUpdate_not s.ventN s.status, hm, ?_⟩
    simp only [hph, hmask]
  · have hvalid := (validLevel_controlLevel_iff s.control).1 hv
    obtain ⟨hl, hA, hB⟩ := controlFields_toNat s.control
    obtain ⟨m, hm⟩ := exists_outmask?_eq_some (controlAuxA s.control) (controlAuxB s.control)
      (!s.ventN) (of_decide_eq_true hv) htick
    refine ⟨_, (execAll_pseudoIter h (exec_loop_snap_valid rfl hv)).trans
      (execAll_sample_to_delay rfl hm), fun _ => ⟨hl, hA, hB, rfl⟩,
      fun hle => absurd hle (Nat.not_le.2 hvalid), statusUpdate_not s.ventN s.status, hm, ?_⟩
    simp only [hph, hmask]

/-- VENT in every state: it writes the enable line (R257). -/
theorem exec_vent (v : Bool) (s : State) :
    exec (.vent v) s = .next { s with ventN := v, obs := {} } := rfl

/-- The heater bits of OUTMASK: PATTERN's value with the ventilation active, 0 without it (R163). -/
theorem heaterBits_of_outmask?_eq_some {level phase : Nat} {a b en : Bool} {m : OutMask}
    (hm : outmask? level phase a b en = some m) :
    (if en then pattern? level phase else some 0b000#3) = some (heaterBits m) := by
  obtain ⟨h, hv, rfl⟩ := Option.map_eq_some_iff.1 hm
  obtain ⟨-, -, hheater, -⟩ := outputMask_bits b a h
  rw [hheater]
  exact hv

/-- STATUS as an iteration leaves it has HDIS at the level of the enable line (R191). -/
theorem statusHdis_updated (v : Bool) (b : Byte) :
    statusHdis ((b &&& 0xFE#8) ||| (BitVec.ofBool v).setWidth 8) = v := by
  rw [← statusUpdate_not, (statusUpdate_bits (!v) b).1, Bool.not_not]

/-- Settles O38: VENT keeps the invariant, so the next iteration is the one O37 sums up. -/
theorem ventIsFollowedByTheNextIteration : Obligations.VentIsFollowedByTheNextIteration := by
  refine fun v s => ⟨⟨_, exec_vent v s, rfl, rfl⟩, fun hs h => ?_⟩
  have hvent : State.Inv { s with ventN := v, obs := {} } := (RowEffect.vent v).keeps_inv hs
  obtain ⟨u, hrun, -, -, hstatus, hout, hframe⟩ := iterationAchievesItsSummary _ hvent h
  have hen : u.en = !v := congrArg State.en hframe
  have hheater := heaterBits_of_outmask?_eq_some hout
  refine ⟨u, (execAll_cons_of_next _ (exec_vent v s)).trans hrun, congrArg State.ventN hframe,
    ?_, ?_, ?_, ?_⟩
  · rw [hen]
    exact iff_of_eq (Bool.not_eq_true' v)
  · rw [hstatus, statusHdis_updated]
  · rintro rfl
    exact hheater
  · rintro rfl
    exact (Option.some.inj hheater).symm

/-- START.W by its event: the own address is acknowledged (R132). -/
theorem exec_start_own_write (s : State) :
    exec (.start Config.busAddr false) s = .next { s with bst := .aw, obs := { ack := true } } := by
  simp [exec, execStart, startOp, ownAddress, startWriteOp]

/-- The index byte 1 in `AW` points at CONTROL (R136). -/
theorem exec_rx_control_index {s : State} (h : s.bst = .aw) :
    exec (.rx 0x01#8) s =
      .next { s with ptr := 1#1, rej := false, bst := .ix, obs := { ack := true } } := by
  have hindex : validIndex 0x01#8 = true := by decide
  have hbit : indexBit 0x01#8 = 1#1 := by decide
  simp only [exec, execRx, rxOp, h, rxIndexOp, hindex, hbit, if_true]

/-- A data byte in `IX` with the pointer at CONTROL is stored there, and the pointer wraps (R137). -/
theorem exec_rx_control_data {s : State} (b : Byte) (h : s.bst = .ix) (hr : s.rej = false)
    (hp : s.ptr = 1#1) :
    exec (.rx b) s = .next { s with control := b, ptr := 0#1, obs := { ack := true } } := by
  have hwrap : nextPtr 1#1 = 0#1 := by decide
  have hstore : rxDataOp b s = ((s.setReg controlIx b).advancePtr).observe { ack := true } := by
    simp only [rxDataOp, hr, hp]; rfl
  simp only [exec, execRx, rxOp, h, hstore, setReg_controlIx, State.advancePtr, State.observe, hp,
    hwrap, hr]

/-- A write transaction of one byte to index 1 stores it in CONTROL (R96, R137). -/
theorem execAll_pseudoWrite_control (b : Byte) (s : State) :
    execAll (pseudoWrite Config.busAddr 0x01#8 [b]) s =
      .next { s with control := b, ptr := 0#1, bst := .idle, rej := false, obs := {} } :=
  calc execAll (pseudoWrite Config.busAddr 0x01#8 [b]) s
    _ = _ := execAll_cons_of_next [.rx 0x01#8, .rx b, .stop] (exec_start_own_write s)
    _ = _ := execAll_cons_of_next _ (exec_rx_control_index rfl)
    _ = _ := execAll_cons_of_next _ (exec_rx_control_data b rfl rfl rfl)
    _ = _ := rfl

/-- Settles O52: the write moves CONTROL and the bus state, and L.SNAP then accepts the byte. -/
theorem controlWriteWaitsForTheSnapshot : Obligations.ControlWriteWaitsForTheSnapshot := by
  intro b s h hlevel
  have hvalid := (validLevel_controlLevel_iff b).2 hlevel
  exact ⟨_, _, execAll_pseudoWrite_control b s, rfl, rfl, rfl, rfl, rfl,
    exec_loop_snap_valid h hvalid, (controlFields_toNat b).1, rfl, rfl⟩

end Sys2Proof.Machine

namespace Sys2Proof.Machine

/-! STATUS and its flag WDOK (R23, R253): the restart records the cause in them, and of the other rows
only a data byte at index 0 and L.STWR write the byte. -/

/-- STATUS by its three writers: a restart, a data byte stored at index 0 (R137), L.STWR (R186); every
other row keeps it. -/
theorem RowEffect.status_cases {s t : State} {r : Instr} (he : RowEffect s r t) :
    t.status = s.status ∨ isReset r = true ∨
      (r = .rxData t.status ∧ s.ptr = 0#1 ∧ s.rej = false) ∨
      (r = .lStwr ∧ t.status = statusUpdate s.en s.stmp) := by
  cases he with
  | reset c => exact .inr (.inl rfl)
  | rxStatus b _ hrej hptr => exact .inr (.inr (.inl ⟨rfl, hptr, hrej⟩))
  | lStwr _ => exact .inr (.inr (.inr ⟨rfl, rfl⟩))
  | _ => exact .inl rfl

/-- L.STWR writes the WDOK of the older byte back (R186). -/
theorem statusWdok_statusUpdate (en : Bool) (b : Byte) :
    statusWdok (statusUpdate en b) = statusWdok b :=
  (statusUpdate_bits en b).2.2

/-- Settles O47: WDOK can only differ where STATUS was written, and each writer's byte is known. -/
theorem watchdogFlagIsLatched : Obligations.WatchdogFlagIsLatched := by
  intro i s t h hne
  obtain hkept | hreset | ⟨hrow, hptr, hrej⟩ | ⟨hrow, hstatus⟩ := (exec_effect i s t h).status_cases
  · exact absurd (congrArg statusWdok hkept) hne
  · exact .inl ((isReset_rowIn s i).symm.trans hreset)
  · exact .inr (.inl ⟨t.status, hrow, hptr, hrej, rfl⟩)
  · refine .inr (.inr ⟨hrow, ?_⟩)
    rw [hstatus, statusWdok_statusUpdate]

/-- RESET in every state: it restarts the block (R250). -/
theorem exec_reset (c : Bool) (s : State) : exec (.reset c) s = .next (s.restart c) := rfl

/-- A restart records the platform's cause flag, set by an earlier or by this restart, in STATUS (R253). -/
@[simp] theorem restart_status (s : State) (c : Bool) :
    (s.restart c).status = restartStatus (s.wdrf || c) :=
  congrArg State.status (restart_eq s c)

/-- A restart consumes the cause flag (R253). -/
@[simp] theorem restart_wdrf (s : State) (c : Bool) : (s.restart c).wdrf = false :=
  congrArg State.wdrf (restart_eq s c)

/-- With the cause flag clear, STATUS after a restart tells that restart's own cause (R253). -/
theorem restart_status_of_wdrf_eq_false {s : State} (h : s.wdrf = false) (c : Bool) :
    (s.restart c).status = restartStatus c := by
  rw [restart_status, h, Bool.false_or]

/-- Settles O40: each restart clears the cause flag, so the next one reports its own cause only. -/
theorem restartCauseIsRecordedOnce : Obligations.RestartCauseIsRecordedOnce := by
  intro s hs
  have hflag : (s.restart true).wdrf = false := restart_wdrf s true
  exact ⟨_, _, exec_reset true s, exec_reset false _,
    restart_status_of_wdrf_eq_false hs true, hflag,
    restart_status_of_wdrf_eq_false hflag false, restart_wdrf _ false,
    _, exec_reset false s, restart_status_of_wdrf_eq_false hs false, restart_wdrf s false⟩

end Sys2Proof.Machine

namespace Sys2Proof.Machine

/-! The words (R99, R100, R104, R110): decoding what was encoded, encoding what was decoded, and which
event words are refused. -/

/-- A word of kind 1 reads as START with the address and the direction of its payload (R91, R100). -/
theorem decode_addressWord (a : DeviceAddress) (d : Bool) :
    decode (.event (eventWord 0x1#4 (addressByte a d))) = .ok (.start a d) := by
  obtain ⟨hkind, hpayload⟩ := eventWord_fields 0x1#4 (addressByte a d)
  obtain ⟨haddr, hdir⟩ := addressByte_fields a d
  simp only [decode, decodeEvent, hkind, hpayload, haddr, hdir]
  rfl

/-- A word of kind 2 reads as RX with its payload (R100). -/
theorem decode_byteWord (b : Byte) :
    decode (.event (eventWord 0x2#4 b)) = .ok (.rx b) := by
  obtain ⟨hkind, hpayload⟩ := eventWord_fields 0x2#4 b
  simp only [decode, decodeEvent, hkind, hpayload]
  rfl

/-- The argument word of PATTERN in the domain reads as its two arguments (R110). -/
theorem decode_patternWord {l : Level} {p : BitVec 4}
    (h : inPatternDomain l.toNat p.toNat = true) :
    decode (.pattern (patternWord l p)) = .ok (.pattern l p) := by
  obtain ⟨hlevel, hphase⟩ := patternWord_fields l p
  simp only [decode, decodePattern, hlevel, hphase, h, if_true]

/-- The argument word of OUTMASK in the domain reads as its five arguments (R110). -/
theorem decode_outmaskWord (e b a : Bool) {l : Level} {p : BitVec 4}
    (h : inPatternDomain l.toNat p.toNat = true) :
    decode (.outmask (outmaskWord e b a l p)) = .ok (.outmask e b a l p) := by
  obtain ⟨hlevel, hphase, hen, hauxB, hauxA⟩ := outmaskWord_fields e b a l p
  simp only [decode, decodeOutmask, hlevel, hphase, hen, hauxB, hauxA, h, if_true]

/-- Settles O53, by the kind of the word: the rows of one event have that event's word. -/
theorem decodeOfEncodeGivesTheEvent : Obligations.DecodeOfEncodeGivesTheEvent := by
  intro i hi
  cases i with
  | start a d | startMiss a d => exact decode_addressWord a d
  | startW => exact decode_addressWord Config.busAddr false
  | startR => exact decode_addressWord Config.busAddr true
  | rx b | rxIndex b | rxData b | rxIgnored b => exact decode_byteWord b
  | vent v | reset v => cases v <;> rfl
  | pattern l p => exact decode_patternWord hi
  | outmask e b a l p => exact decode_outmaskWord e b a hi
  | _ => rfl

/-- An event word is made of its two fields (R99). -/
theorem eventWord_of_fields {w : EventWord} {k : Nat} {p : Byte}
    (hk : (w.extractLsb' 8 4).toNat = k) (hp : w.extractLsb' 0 8 = p) :
    eventWord (BitVec.ofNat 4 k) p = w := by
  rw [← hk, ← hp, BitVec.ofNat_toNat, BitVec.setWidth_eq]
  apply BitVec.eq_of_toNat_eq
  rw [eventWord_toNat, BitVec.extractLsb'_toNat, BitVec.extractLsb'_toNat, Nat.shiftRight_eq_div_pow]
  omega

/-- An address byte is made of its two fields (R91). -/
theorem addressByte_of_fields (p : Byte) :
    addressByte (p.extractLsb' 1 7) (p.getLsbD 0) = p := by
  revert p; decide

/-- A plain event reads only the payload 0 (R104). -/
theorem payload_of_plainEvent_eq_ok {p : Byte} {i j : Instr} (h : plainEvent p i = .ok j) :
    p = 0#8 := by
  unfold plainEvent at h
  split at h <;> cases h
  assumption

/-- A payload of seven zeros over a bit is made of that bit (R100). -/
theorem bitByte_of_fields {p : Byte} (h : p.extractLsb' 1 7 = 0#7) : bitByte (p.getLsbD 0) = p := by
  revert p; decide

/-- A one-bit event reads only the payload of its bit (R104). -/
theorem payload_of_oneBitEvent_eq_ok {p : Byte} {f : Bool → Instr} {j : Instr}
    (h : oneBitEvent p f = .ok j) : ∃ b : Bool, j = f b ∧ p = bitByte b := by
  unfold oneBitEvent at h
  split at h <;> cases h
  exact ⟨_, rfl, (bitByte_of_fields ‹_›).symm⟩

/-- Encoding what an event word decodes to gives that word (R99, R100). -/
theorem encode_of_decodeEvent {w : EventWord} {i : Instr} (h : decodeEvent w = .ok i) :
    encode i = .event w := by
  unfold decodeEvent at h
  split at h
  case h_2 hk =>
    cases h
    exact congrArg _ (eventWord_of_fields hk (addressByte_of_fields _).symm)
  case h_3 hk =>
    cases h
    exact congrArg _ (eventWord_of_fields hk rfl)
  case h_8 hk | h_9 hk =>
    obtain ⟨b, rfl, hp⟩ := payload_of_oneBitEvent_eq_ok h
    exact congrArg _ (eventWord_of_fields hk hp)
  case h_10 => cases h
  all_goals
    rename_i hk
    cases plainEvent_eq_ok h
    exact congrArg _ (eventWord_of_fields hk (payload_of_plainEvent_eq_ok h))

/-- The argument word of PATTERN is made of its two fields (R110). -/
theorem patternWord_of_fields (w : PatternWord) :
    patternWord (w.extractLsb' 4 6) (w.extractLsb' 0 4) = w := by
  apply BitVec.eq_of_toNat_eq
  rw [patternWord_toNat, BitVec.extractLsb'_toNat, BitVec.extractLsb'_toNat,
    Nat.shiftRight_eq_div_pow]
  omega

/-- The argument word of OUTMASK is made of its five fields (R110). -/
theorem outmaskWord_of_fields (w : OutmaskWord) :
    outmaskWord (w.getLsbD 12) (w.getLsbD 11) (w.getLsbD 10) (w.extractLsb' 4 6)
      (w.extractLsb' 0 4) = w := by
  have hbit : ∀ i : Nat, (w.getLsbD i).toNat = w.toNat / 2 ^ i % 2 := fun i => by
    rw [← BitVec.testBit_toNat, Nat.toNat_testBit]
  apply BitVec.eq_of_toNat_eq
  rw [outmaskWord_toNat, hbit, hbit, hbit, BitVec.extractLsb'_toNat, BitVec.extractLsb'_toNat,
    Nat.shiftRight_eq_div_pow]
  omega

/-- Encoding what a word decodes to gives that word (R99, R110). -/
theorem encode_of_decode {w : TraceWord} {i : Instr} (h : decode w = .ok i) : encode i = w := by
  cases w with
  | event w => exact encode_of_decodeEvent h
  | pattern w =>
    simp only [decode, decodePattern] at h
    split at h <;> cases h
    exact congrArg _ (patternWord_of_fields w)
  | outmask w =>
    simp only [decode, decodeOutmask] at h
    split at h <;> cases h
    exact congrArg _ (outmaskWord_of_fields w)
  | malformed => cases h

/-- Settles O54: the word is recovered from its fields, and the decoder answers admitted events only. -/
theorem encodeOfDecodeGivesTheWord : Obligations.EncodeOfDecodeGivesTheWord := by
  intro w i h
  obtain ⟨hevent, hwf⟩ := event_and_wellFormed_of_decode h
  exact ⟨encode_of_decode h, hwf, hevent⟩

end Sys2Proof.Machine

namespace Sys2Proof.Machine

/-! A step takes the oldest waiting word (R66, R71; log 1), so a list of words runs as the list of its
events; and which event words are refused (R104). -/

/-- A waiting word that decodes to an operation is taken and the operation executed (R66, R71). -/
theorem step_of_decode_eq_ok {s : State} {w : TraceWord} {ws : List TraceWord} {i : Instr}
    (htrace : s.trace = w :: ws) (hdecode : decode w = .ok i) :
    step s = exec i { s with trace := ws } := by
  simp only [step, State.nextWord, State.consumeWord, htrace, hdecode, List.tail_cons]

/-- A waiting word that decodes to nothing stops the step with the decoder's reason (R104). -/
theorem step_of_decode_eq_error {s : State} {w : TraceWord} {ws : List TraceWord} {e : DecodeError}
    (htrace : s.trace = w :: ws) (hdecode : decode w = .error e) :
    step s = .refused (.badWord e) := by
  simp only [step, State.nextWord, htrace, hdecode]

/-- With no event waiting there is nothing to take (log 1). -/
theorem consumeWord_of_trace_nil {s : State} (h : s.trace = []) : s.consumeWord = s := by
  obtain ⟨⟩ := s
  cases h
  rfl

/-- Settles O57: the three things a step can find in the trace. -/
theorem stepRunsTheDecodedInstruction : Obligations.StepRunsTheDecodedInstruction := by
  refine fun s => ⟨fun w ws i => step_of_decode_eq_ok, fun w ws e => step_of_decode_eq_error,
    fun hnil => ?_⟩
  rw [step_of_trace_nil hnil, consumeWord_of_trace_nil hnil]

/-- No operation puts an event into the trace or takes one out of it (R71; log 1). -/
theorem trace_of_exec {i : Instr} {s t : State} (h : exec i s = .next t) : t.trace = s.trace := by
  have hsame : exec i s = .next { t with trace := s.trace } := exec_withTrace i s.trace s t h
  have hkept : t = { t with trace := s.trace } := Host.Outcome.next.inj (h.symm.trans hsame)
  rw [hkept]

/-- The first operation of a run that answers a next state does so itself, and the rest runs from there. -/
theorem exists_exec_of_execAll_cons {i : Instr} {is : List Instr} {s t : State}
    (h : execAll (i :: is) s = .next t) :
    ∃ u : State, exec i s = .next u ∧ execAll is u = .next t := by
  cases hi : exec i s with
  | next u => exact ⟨u, rfl, (execAll_cons_of_next is hi).symm.trans h⟩
  | fault r | refused r => simp only [execAll, hi] at h; cases h

/-- The machine goes on from the next state of its first step. -/
theorem core_run_succ_of_next {s t : State} (n : Nat) (h : step s = .next t) :
    core.run (n + 1) s = core.run n t := by
  have hcore : core.step s = .next t := h
  simp only [Host.Core.run, hcore]

/-- Settles O58, by induction on the list: each step takes the first word, which decodes to its event
(O53), and the words behind it stay. -/
theorem runOfWordsExecutesTheirEvents : Obligations.RunOfWordsExecutesTheirEvents := by
  intro is
  induction is with
  | nil =>
    intro s t _ hnil h
    cases h
    obtain ⟨⟩ := s
    cases hnil
    rfl
  | cons i is ih =>
    intro s t hwf hnil h
    obtain ⟨hi, his⟩ := List.forall_mem_cons.1 hwf
    obtain ⟨u, hu, hrest⟩ := exists_exec_of_execAll_cons h
    have hstep : step { s with trace := (i :: is).map encode } =
        .next { u with trace := is.map encode } :=
      (step_of_decode_eq_ok rfl (decodeOfEncodeGivesTheEvent i hi)).trans
        (exec_withTrace i.event (is.map encode) s u hu)
    exact (core_run_succ_of_next is.length hstep).trans
      (ih u t his ((trace_of_exec hu).trans hnil) hrest)

/-- The fields of an event word as numbers (R99). -/
theorem eventFields_toNat (w : EventWord) :
    (w.extractLsb' 8 4).toNat = w.toNat / 256 ∧ (w.extractLsb' 0 8).toNat = w.toNat % 256 := by
  have hw := w.isLt
  rw [BitVec.extractLsb'_toNat, BitVec.extractLsb'_toNat, Nat.shiftRight_eq_div_pow]
  omega

/-- A plain event word is refused exactly where a payload bit is set (R104). -/
theorem plainEvent_eq_ite (w : EventWord) (i : Instr) :
    plainEvent (w.extractLsb' 0 8) i =
      if w.toNat % 256 = 0 then .ok i else .error .payloadNotZero := by
  rw [← (eventFields_toNat w).2, plainEvent]
  exact if_congr BitVec.toNat_inj.symm rfl rfl

/-- A one-bit event word is refused exactly where one of the payload's upper seven bits is set (R104). -/
theorem oneBitEvent_eq_ite (w : EventWord) (f : Bool → Instr) :
    oneBitEvent (w.extractLsb' 0 8) f =
      if w.toNat % 256 < 2 then .ok (f ((w.extractLsb' 0 8).getLsbD 0))
      else .error .payloadNotZero := by
  have hupper : ∀ p : Byte, p.extractLsb' 1 7 = 0#7 ↔ p.toNat < 2 := by decide
  rw [← (eventFields_toNat w).2, oneBitEvent]
  exact if_congr (hupper _) rfl rfl

/-- What the decoder does with each kind of event word (R100, R104). -/
theorem decodeEvent_cases (w : EventWord) :
    ((w.toNat / 256 = 1 ∨ w.toNat / 256 = 2) ∧ ∃ i, decodeEvent w = .ok i) ∨
    ((w.toNat / 256 = 0 ∨ w.toNat / 256 = 3 ∨ w.toNat / 256 = 4 ∨ w.toNat / 256 = 5 ∨
      w.toNat / 256 = 6) ∧ ∃ i, decodeEvent w = plainEvent (w.extractLsb' 0 8) i) ∨
    ((w.toNat / 256 = 7 ∨ w.toNat / 256 = 8) ∧
      ∃ f, decodeEvent w = oneBitEvent (w.extractLsb' 0 8) f) ∨
    (9 ≤ w.toNat / 256 ∧ decodeEvent w = .error .unknownKind) := by
  rw [← (eventFields_toNat w).1]
  unfold decodeEvent
  split
  case h_2 hk | h_3 hk => exact .inl ⟨by omega, _, rfl⟩
  case h_8 hk | h_9 hk => exact .inr (.inr (.inl ⟨by omega, _, rfl⟩))
  case h_10 =>
    refine .inr (.inr (.inr ⟨?_, rfl⟩))
    simp only [imp_false] at *
    omega
  all_goals exact .inr (.inl ⟨by omega, _, rfl⟩)

/-- Settles O55, by the kind of the word; its number is `256 * kind + payload`. -/
theorem reservedEventWordsAreRefused : Obligations.ReservedEventWordsAreRefused := by
  intro w
  simp only [decode]
  obtain ⟨hk, i, hw⟩ | ⟨hk, i, hw⟩ | ⟨hk, f, hw⟩ | ⟨hk, hw⟩ := decodeEvent_cases w
  · simp [hw]
    omega
  · rw [hw, plainEvent_eq_ite]
    split_ifs <;> simp <;> omega
  · rw [hw, oneBitEvent_eq_ite]
    split_ifs <;> simp <;> omega
  · simp [hw]
    omega

/-- Settles O56: each word's fields, computed. -/
theorem wordsOfTheTableDecode : Obligations.WordsOfTheTableDecode :=
  ⟨rfl, rfl, rfl, rfl, rfl, rfl, rfl, rfl, rfl, rfl, rfl⟩

end Sys2Proof.Machine

namespace Sys2Proof.Machine

/-! The bus interface (R131 to R145): the step equation of each event in each protocol state, and of the
row it selects there. -/

/-- START.R by its event: the own address is acknowledged (R133). -/
theorem exec_start_own_read (s : State) :
    exec (.start Config.busAddr true) s = .next { s with bst := .ar, obs := { ack := true } } := by
  simp [exec, execStart, startOp, ownAddress, startReadOp]

/-- START with a foreign address ends the transaction (R134). -/
theorem exec_start_foreign {a : DeviceAddress} (d : Bool) (s : State) (h : a ≠ Config.busAddr) :
    exec (.start a d) s = .next { s with bst := .idle, rej := false, obs := {} } := by
  simp only [exec, execStart, startOp, ownAddress, h, decide_false]
  rfl

/-- Settles O4: the step equation of START for each kind of address. -/
theorem startSelectsByAddressAndDirection : Obligations.StartSelectsByAddressAndDirection := by
  intro a d s
  by_cases ha : a = Config.busAddr
  · subst ha
    cases d
    · exact ⟨_, exec_start_own_write s, fun _ _ => rfl, nofun, fun hne => absurd rfl hne⟩
    · exact ⟨_, exec_start_own_read s, nofun, fun _ _ => rfl, fun hne => absurd rfl hne⟩
  · exact ⟨_, exec_start_foreign d s ha, fun heq => absurd heq ha, fun heq => absurd heq ha,
      fun _ => rfl⟩

/-- Settles O5: START.W and START.R ask for no state. -/
theorem ownAddressIsAcceptedInEveryState : Obligations.OwnAddressIsAcceptedInEveryState :=
  fun _ => ⟨⟨_, rfl, rfl, rfl, rfl⟩, ⟨_, rfl, rfl, rfl, rfl⟩⟩

/-- Settles O6: START.MISS does what START does for a foreign address, and stops for the own one. -/
theorem foreignAddressReturnsToIdle : Obligations.ForeignAddressReturnsToIdle := by
  refine fun a d s => ⟨fun ha => ?_, fun ha => ?_⟩
  · have hrow : selectedRow s (.start a d) = .startMiss a d := by
      simp [selectedRow, ownAddress, ha]
    have hexec := (exec_selectedRow_start a d s).trans (exec_start_foreign d s ha)
    rw [hrow] at hexec
    exact ⟨_, hexec, rfl, rfl, rfl, rfl⟩
  · exact if_pos (decide_eq_true ha)

/-- In `AW` the event RX is the row RX.INDEX (R109). -/
theorem exec_rxIndex_of_aw (v : Byte) {s : State} (h : s.bst = .aw) :
    exec (.rxIndex v) s = exec (.rx v) s := by
  simpa only [selectedRow, h] using exec_selectedRow_rx v s

/-- In `IX` the event RX is the row RX.DATA (R109). -/
theorem exec_rxData_of_ix (b : Byte) {s : State} (h : s.bst = .ix) :
    exec (.rxData b) s = exec (.rx b) s := by
  simpa only [selectedRow, h] using exec_selectedRow_rx b s

/-- An index byte in range is taken as the pointer (R136). -/
theorem exec_rx_index_in {v : Byte} {s : State} (h : s.bst = .aw) (hv : v.toNat < 2) :
    exec (.rx v) s =
      .next { s with ptr := indexBit v, rej := false, bst := .ix, obs := { ack := true } } := by
  simp only [exec, execRx, rxOp, h, rxIndexOp, (validIndex_iff v).2 hv, if_true]

/-- An index byte out of range is rejected (R136, R212). -/
theorem exec_rx_index_out {v : Byte} {s : State} (h : s.bst = .aw) (hv : 2 ≤ v.toNat) :
    exec (.rx v) s = .next
      { s with
        rej := true, bst := .ix,
        obs := { ack := true, raised := some ⟨.indexOutOfRange, some v⟩ } } := by
  have hout : ¬validIndex v = true := mt (validIndex_iff v).1 (Nat.not_lt.2 hv)
  simp only [exec, execRx, rxOp, h, rxIndexOp, if_neg hout]

/-- Settles O7: the step equation of an index byte, in range or not. -/
theorem indexByteSelectsOrRejects : Obligations.IndexByteSelectsOrRejects := by
  intro v s h
  have hrow := exec_rxIndex_of_aw v h
  obtain hv | hv := Nat.lt_or_ge v.toNat 2
  · have hexec := exec_rx_index_in h hv
    exact ⟨_, hrow.trans hexec, hexec, rfl, rfl, fun _ => ⟨indexBit_toNat v hv, rfl, rfl⟩,
      fun hle => absurd hv (Nat.not_lt.2 hle), rfl⟩
  · have hexec := exec_rx_index_out h hv
    exact ⟨_, hrow.trans hexec, hexec, rfl, rfl, fun hlt => absurd hlt (Nat.not_lt.2 hv),
      fun _ => ⟨rfl, rfl, rfl⟩, rfl⟩

/-- A data byte as it is taken: stored at the pointer, which moves on, and acknowledged (R137). -/
def State.storeByte (s : State) (b : Byte) : State :=
  (s.setReg s.ptr b).advancePtr.observe { ack := true }

/-- The pointer after a data byte (R137). -/
theorem storeByte_ptr (s : State) (b : Byte) : (s.storeByte b).ptr = nextPtr s.ptr :=
  congrArg nextPtr (setReg_ptr s s.ptr b)

/-- A data byte reaches the registers and the pointer only. -/
theorem storeByte_frame (s : State) (b : Byte) :
    s.storeByte b =
      { s with
        status := (s.storeByte b).status, control := (s.storeByte b).control,
        ptr := (s.storeByte b).ptr, obs := { ack := true } } := by
  unfold State.storeByte
  rcases regIndex_cases s.ptr with hp | hp <;> rw [hp] <;> rfl

/-- A data byte after an index is stored at the pointer, which moves on (R137). -/
theorem exec_rx_data (b : Byte) {s : State} (h : s.bst = .ix) (hr : s.rej = false) :
    exec (.rx b) s = .next (s.storeByte b) := by
  simp only [exec, execRx, rxOp, h, rxDataOp, hr]
  rfl

/-- A data byte after a rejected index is discarded (R137). -/
theorem exec_rx_discarded (b : Byte) {s : State} (h : s.bst = .ix) (hr : s.rej = true) :
    exec (.rx b) s = .next (s.observe { ack := true }) := by
  simp only [exec, execRx, rxOp, h, rxDataOp, hr, if_true]

/-- Settles O8: the step equation of a data byte, stored or discarded. -/
theorem dataByteStoresAtPointerAndWraps : Obligations.DataByteStoresAtPointerAndWraps := by
  intro b s h
  have hrow := exec_rxData_of_ix b h
  obtain hr | hr := Bool.eq_false_or_eq_true s.rej
  · have hexec := exec_rx_discarded b h hr
    exact ⟨_, hrow.trans hexec, hexec, rfl, fun hno => (nomatch hr.symm.trans hno),
      fun _ => ⟨fun _ => rfl, rfl⟩, rfl⟩
  · have hexec := exec_rx_data b h hr
    refine ⟨_, hrow.trans hexec, hexec, rfl, fun _ => ⟨reg_setReg_same s s.ptr b,
      fun j hj => reg_setReg_other s s.ptr j b hj, ?_⟩,
      fun hyes => (nomatch hr.symm.trans hyes), storeByte_frame s b⟩
    rw [storeByte_ptr, nextPtr_toNat]

/-- A byte outside a write is ignored (R138). -/
theorem exec_rx_ignored (b : Byte) {s : State} (h : s.bst = .idle ∨ s.bst = .ar) :
    exec (.rx b) s = .next s.quiet := by
  rcases h with h | h <;> simp only [exec, execRx, rxOp, h, rxIgnoredOp]

/-- Outside a write the event RX is the row RX.IGNORED (R109). -/
theorem exec_rxIgnored_of_idle_or_ar (b : Byte) {s : State} (h : s.bst = .idle ∨ s.bst = .ar) :
    exec (.rxIgnored b) s = exec (.rx b) s := by
  rcases h with h | h <;> simpa only [selectedRow, h] using exec_selectedRow_rx b s

/-- Settles O9: the step equation of an ignored byte. -/
theorem byteOutsideAWriteIsIgnored : Obligations.ByteOutsideAWriteIsIgnored := by
  intro b s h
  have hexec := exec_rx_ignored b h
  exact ⟨_, (exec_rxIgnored_of_idle_or_ar b h).trans hexec, hexec, rfl, rfl⟩

/-- TX in a read sends the register at the pointer, which moves on (R139). -/
theorem exec_tx_read {s : State} (h : s.bst = .ar) (hr : s.rej = false) :
    exec .tx s = .next (s.advancePtr.observe { sent := some (s.reg s.ptr) }) := by
  simp only [exec, execTx, txEventOp, h, hr]
  rfl

/-- TX in a read after a rejected index sends a free byte (R140). -/
theorem exec_tx_rejected {s : State} (h : s.bst = .ar) (hr : s.rej = true) :
    exec .tx s = .next s.sendDrawn := by
  simp only [exec, execTx, txEventOp, h, hr]
  rfl

/-- TX outside a read puts a free byte on the bus (R141). -/
theorem exec_tx_foreign {s : State} (h : s.bst ≠ .ar) : exec .tx s = .next s.sendDrawn := by
  cases hb : s.bst
  case ar => exact absurd hb h
  all_goals
    simp only [exec, execTx, txEventOp, hb]
    rfl

/-- Settles O10: the step equation of TX in a read. -/
theorem transmitSendsRegisterAtPointer : Obligations.TransmitSendsRegisterAtPointer :=
  fun s h hr => ⟨_, exec_tx_read h hr, rfl, nextPtr_toNat s.ptr, rfl⟩

/-- In a read after a rejected index the event TX is the row TX.REJ (R109). -/
theorem exec_txRej_of_rejected {s : State} (h : s.bst = .ar) (hr : s.rej = true) :
    exec .txRej s = exec .tx s := by
  simpa only [selectedRow, h, hr, if_true] using exec_selectedRow_tx s

/-- Settles O11: the step equation of TX after a rejected index. -/
theorem transmitAfterRejectionLeavesPointer : Obligations.TransmitAfterRejectionLeavesPointer := by
  intro s h hr
  have hexec := exec_tx_rejected h hr
  exact ⟨_, (exec_txRej_of_rejected h hr).trans hexec, hexec, ⟨_, rfl⟩, rfl⟩

/-- Outside a read the event TX is the row TX.FOREIGN (R109). -/
theorem exec_txForeign_of_ne_ar {s : State} (h : s.bst ≠ .ar) :
    exec .txForeign s = exec .tx s := by
  have hrow := exec_selectedRow_tx s
  cases hb : s.bst
  case ar => exact absurd hb h
  all_goals simpa only [selectedRow, hb] using hrow

/-- Settles O12: the step equation of TX outside a read. -/
theorem foreignTransmitChangesNothing : Obligations.ForeignTransmitChangesNothing := by
  intro s h
  have hexec := exec_tx_foreign h
  exact ⟨_, (exec_txForeign_of_ne_ar h).trans hexec, hexec, ⟨_, rfl⟩, rfl⟩

/-- NACK in a read ends it (R142). -/
theorem exec_nack_read {s : State} (h : s.bst = .ar) :
    exec .nack s = .next { s with bst := .idle, rej := false, obs := {} } := by
  simp only [exec, execNack, nackOp, h]
  rfl

/-- NACK outside a read has no effect (R142). -/
theorem exec_nack_other {s : State} (h : s.bst ≠ .ar) :
    exec .nack s = .next s.quiet := by
  cases hb : s.bst
  case ar => exact absurd hb h
  all_goals simp only [exec, execNack, nackOp, hb]

/-- Settles O13: the step equation of NACK, in a read and outside. -/
theorem nackEndsOnlyARead : Obligations.NackEndsOnlyARead := by
  intro s
  by_cases h : s.bst = .ar
  · exact ⟨_, exec_nack_read h, fun _ => rfl, fun hne => absurd h hne⟩
  · exact ⟨_, exec_nack_other h, fun heq => absurd heq h, fun _ => rfl⟩

/-- STOP in every state ends the transaction (R143). -/
theorem exec_stop (s : State) :
    exec .stop s = .next { s with bst := .idle, rej := false, obs := {} } := rfl

/-- Settles O14: the step equation of STOP. -/
theorem stopEndsTransactionAndKeepsPointer : Obligations.StopEndsTransactionAndKeepsPointer :=
  fun s => ⟨_, exec_stop s, rfl, rfl, rfl⟩

end Sys2Proof.Machine

namespace Sys2Proof.Machine

/-! Which row writes which element (R42, R144, R145), row by row. -/

/-- A row acknowledges exactly the own address and the bytes of a write (R144). -/
theorem RowEffect.ack_iff {s t : State} {r : Instr} (he : RowEffect s r t) :
    t.obs.ack = true ↔
      (∃ d : Bool, r.event = .start Config.busAddr d) ∨
        ((∃ b : Byte, r.event = .rx b) ∧ (s.bst = .aw ∨ s.bst = .ix)) := by
  cases he with
  | startW | startR => exact iff_of_true rfl (.inl ⟨_, rfl⟩)
  | rxIndexIn v hb _ | rxIndexOut v hb _ => exact iff_of_true rfl (.inr ⟨⟨v, rfl⟩, .inl hb⟩)
  | rxStatus b hb _ _ | rxControl b hb _ _ | rxDiscarded b hb _ =>
    exact iff_of_true rfl (.inr ⟨⟨b, rfl⟩, .inr hb⟩)
  | startMiss a d ha =>
    refine iff_of_false nofun ?_
    rintro (⟨d', hd⟩ | ⟨⟨b, hb⟩, -⟩)
    · cases hd
      exact ha rfl
    · cases hb
  | rxIgnored b hb =>
    refine iff_of_false nofun ?_
    rintro (⟨d, hd⟩ | ⟨-, haw | hix⟩)
    · cases hd
    · simp [haw] at hb
    · simp [hix] at hb
  | _ =>
    refine iff_of_false nofun ?_
    rintro (⟨d, hd⟩ | ⟨⟨b, hb⟩, -⟩)
    · cases hd
    · cases hb

/-- Settles O15: an operation and its row have one event, and the row's acknowledge is known. -/
theorem acknowledgesExactlyWhenAddressed : Obligations.AcknowledgesExactlyWhenAddressed := by
  intro i s t h
  have hack := (exec_effect i s t h).ack_iff
  rwa [event_rowIn] at hack

/-- The pointer by its writers: an index byte in range, a stored data byte, a byte sent, a restart; every
other row keeps it (R145). -/
theorem RowEffect.ptr_cases {s t : State} {r : Instr} (he : RowEffect s r t) :
    t.ptr = s.ptr ∨ (∃ v : Byte, r = .rxIndex v ∧ v.toNat < 2) ∨
      ((∃ b : Byte, r = .rxData b) ∧ s.rej = false) ∨
      (r = .tx ∧ s.bst = .ar ∧ s.rej = false) ∨ isReset r = true := by
  cases he with
  | rxIndexIn v _ hv => exact .inr (.inl ⟨v, rfl, hv⟩)
  | rxStatus b _ hr _ | rxControl b _ hr _ => exact .inr (.inr (.inl ⟨⟨b, rfl⟩, hr⟩))
  | tx hb hr => exact .inr (.inr (.inr (.inl ⟨rfl, hb, hr⟩)))
  | reset c => exact .inr (.inr (.inr (.inr rfl)))
  | _ => exact .inl rfl

/-- Settles O16: the writers of the pointer, row by row. -/
theorem pointerMovesOnlyByTransfersAndReset : Obligations.PointerMovesOnlyByTransfersAndReset := by
  intro i s t h hne
  have hptr := (exec_effect i s t h).ptr_cases.resolve_left hne
  rwa [isReset_rowIn] at hptr

section Owners
variable {s t : State} {r : Instr}

/-- CONTROL is written by a data byte at index 1 and by the echo of L.SNAP (R42, R183). -/
theorem RowEffect.control_cases (he : RowEffect s r t) (hr : isReset r = false) :
    t.control = s.control ∨ ((∃ b : Byte, r = .rxData b) ∧ s.ptr = 1#1) ∨
      (r = .lSnap ∧ 31 ≤ s.control.toNat % 64) := by
  cases he with
  | rxControl b _ _ hp => exact .inr (.inl ⟨⟨b, rfl⟩, hp⟩)
  | lSnapInvalid _ hv => exact .inr (.inr ⟨rfl, (validLevel_controlLevel_eq_false_iff _).1 hv⟩)
  | reset c => cases hr
  | _ => exact .inl rfl

/-- The responder's state is written by bus events (R42). -/
theorem RowEffect.isBusEvent_or_bus_kept (he : RowEffect s r t) (hr : isReset r = false) :
    isBusEvent r = true ∨ (t.bst = s.bst ∧ t.ptr = s.ptr ∧ t.rej = s.rej) := by
  cases he with
  | startW | startR | startMiss | rxIndexIn | rxIndexOut | rxStatus | rxControl | rxDiscarded
  | rxIgnored | tx | txRej | txForeign | nackRead | nackOther | stop => exact .inl rfl
  | reset c => cases hr
  | _ => exact .inr ⟨rfl, rfl, rfl⟩

/-- Level, auxiliary flags and interrupt mask are written by L.SNAP (R42, R39). -/
theorem RowEffect.eq_lSnap_or_request_kept (he : RowEffect s r t) (hr : isReset r = false) :
    r = .lSnap ∨
      (t.level = s.level ∧ t.auxA = s.auxA ∧ t.auxB = s.auxB ∧ t.irqMask = s.irqMask) := by
  cases he with
  | lSnapValid | lSnapInvalid => exact .inl rfl
  | reset c => cases hr
  | _ => exact .inr ⟨rfl, rfl, rfl, rfl⟩

/-- The sample of the enable line is written by L.SAMPLE (R42). -/
theorem RowEffect.en_kept (he : RowEffect s r t) (hr : isReset r = false) (hne : r ≠ .lSample) :
    t.en = s.en := by
  cases he with
  | lSample => exact absurd rfl hne
  | reset c => cases hr
  | _ => rfl

/-- The copy of STATUS is written by L.STRD (R42). -/
theorem RowEffect.stmp_kept (he : RowEffect s r t) (hr : isReset r = false) (hne : r ≠ .lStrd) :
    t.stmp = s.stmp := by
  cases he with
  | lStrd => exact absurd rfl hne
  | reset c => cases hr
  | _ => rfl

/-- The phase is written by L.PHASE (R42). -/
theorem RowEffect.ph_kept (he : RowEffect s r t) (hr : isReset r = false) (hne : r ≠ .lPhase) :
    t.ph = s.ph := by
  cases he with
  | lPhase => exact absurd rfl hne
  | reset c => cases hr
  | _ => rfl

/-- The output latch is written by L.DRIVE (R42). -/
theorem RowEffect.out_kept (he : RowEffect s r t) (hr : isReset r = false) (hne : r ≠ .lDrive) :
    t.out = s.out := by
  cases he with
  | lDrive => exact absurd rfl hne
  | reset c => cases hr
  | _ => rfl

/-- The enable line is written by VENT (R42, R257). -/
theorem RowEffect.ventN_kept_or_vent (he : RowEffect s r t) :
    t.ventN = s.ventN ∨ ∃ v : Bool, r = .vent v := by
  cases he with
  | vent v => exact .inr ⟨v, rfl⟩
  | _ => exact .inl rfl

/-- The platform's elements are written by a restart (R37, R38). -/
theorem RowEffect.platform_kept (he : RowEffect s r t) (hr : isReset r = false) :
    t.wdrf = s.wdrf ∧ t.wdtEn = s.wdtEn := by
  cases he with
  | reset c => cases hr
  | _ => exact ⟨rfl, rfl⟩

end Owners

/-- VENT is the one operation whose row is VENT: it shares its word with no other (R100). -/
theorem eq_vent_of_rowIn_eq_vent {s : State} {i : Instr} {v : Bool} (h : rowIn s i = .vent v) :
    i = .vent v := by
  have hev : i.event = .vent v := by rw [← event_rowIn s i, h]; rfl
  cases i with
  | vent u => exact hev
  | _ => cases hev

/-- The row an operation is in a state is a bus event exactly when the operation is. -/
theorem isBusEvent_rowIn (s : State) (i : Instr) : isBusEvent (rowIn s i) = isBusEvent i := by
  rw [isBusEvent, isBusEvent, event_rowIn]

/-- Settles O46, element by element, by the rows that write it. -/
theorem elementsChangeOnlyByTheirOwners : Obligations.ElementsChangeOnlyByTheirOwners := by
  intro i s t h hi
  have he : RowEffect s (rowIn s i) t := exec_effect i s t h
  have hr : isReset (rowIn s i) = false := (isReset_rowIn s i).trans hi
  have hbus := he.isBusEvent_or_bus_kept hr
  have hsnap := he.eq_lSnap_or_request_kept hr
  rw [isBusEvent_rowIn] at hbus
  refine ⟨fun hne => ?_, (he.control_cases hr).resolve_left, by tauto, fun hne => ?_, by tauto,
    not_imp_comm.1 (he.en_kept hr), not_imp_comm.1 (he.stmp_kept hr),
    not_imp_comm.1 (he.ph_kept hr), fun hne => ?_, not_imp_comm.1 (he.out_kept hr), fun hne => ?_,
    by tauto, (he.platform_kept hr).1, (he.platform_kept hr).2, trace_of_exec h⟩
  · obtain hkept | hreset | ⟨hrow, hptr, -⟩ | ⟨hrow, -⟩ := he.status_cases
    · exact absurd hkept hne
    · rw [hr] at hreset
      cases hreset
    · exact .inl ⟨⟨_, hrow⟩, hptr⟩
    · exact .inr hrow
  · exact eq_tick_of_rowIn_eq_tick (by_contra fun hrow => hne (he.tick_kept hrow hr))
  · obtain ⟨hloop, -⟩ | ⟨hreset, -⟩ | ⟨-, hkept⟩ := lpc_cases_of_exec h
    · exact hloop
    · rw [hi] at hreset
      cases hreset
    · exact absurd hkept hne
  · obtain ⟨v, hv⟩ := he.ventN_kept_or_vent.resolve_left hne
    exact ⟨v, eq_vent_of_rowIn_eq_vent hv⟩

end Sys2Proof.Machine

namespace Sys2Proof.Machine

/-! Whole transactions (R96 to R98): the bytes of a write and of a read by induction on their number. -/

/-- A run goes on from where its first part ends. -/
theorem execAll_append_of_next {is : List Instr} (js : List Instr) {s t : State}
    (h : execAll is s = .next t) : execAll (is ++ js) s = execAll js t := by
  induction is generalizing s with
  | nil => cases h; rfl
  | cons i is ih =>
    obtain ⟨u, hi, hrest⟩ := exists_exec_of_execAll_cons h
    exact (execAll_cons_of_next (is ++ js) hi).trans (ih hrest)

/-- The registers and the pointer of `t` after the bytes `bs` went to `s` at alternating indices from its pointer on (R96). -/
structure Stored (bs : List Byte) (s t : State) : Prop where
  ptr_eq : t.ptr.toNat = (s.ptr.toNat + bs.length) % 2
  last_two : ∀ (k : Nat) (h : k < bs.length), bs.length ≤ k + 2 →
    t.reg (BitVec.ofNat 1 (s.ptr.toNat + k)) = bs[k]
  others_kept : ∀ j : RegIndex, (∀ k : Nat, k < bs.length → (s.ptr.toNat + k) % 2 ≠ j.toNat) →
    t.reg j = s.reg j

/-- Nothing is stored where no byte comes. -/
theorem Stored.nil (s : State) : Stored [] s s where
  ptr_eq := (Nat.mod_eq_of_lt s.ptr.isLt).symm
  last_two := nofun
  others_kept _ _ := rfl

/-- Counting from the pointer after one transfer is counting from the next index on (R29). -/
theorem ofNat_nextPtr_add (p : RegIndex) (k : Nat) :
    BitVec.ofNat 1 ((nextPtr p).toNat + k) = BitVec.ofNat 1 (p.toNat + (k + 1)) := by
  apply BitVec.eq_of_toNat_eq
  rw [BitVec.toNat_ofNat, BitVec.toNat_ofNat, nextPtr_toNat]
  omega

/-- The first byte goes to the pointer, the others to the indices from the next one on. -/
theorem Stored.cons {b : Byte} {bs : List Byte} {s t : State} (h : Stored bs (s.storeByte b) t) :
    Stored (b :: bs) s t := by
  obtain ⟨hptr, hlast, hothers⟩ := h
  have hp := nextPtr_toNat s.ptr
  have hlt := s.ptr.isLt
  rw [storeByte_ptr] at hptr hlast hothers
  refine ⟨?_, fun k hk htwo => ?_, fun j hj => ?_⟩
  · rw [hptr, hp, List.length_cons]
    omega
  · rw [List.length_cons] at hk htwo
    cases k with
    | zero =>
      have hkept := hothers s.ptr fun k hk => by omega
      rw [Nat.add_zero, BitVec.ofNat_toNat, BitVec.setWidth_eq, hkept]
      exact reg_setReg_same s s.ptr b
    | succ k =>
      rw [← ofNat_nextPtr_add]
      exact hlast k (by omega) (by omega)
  · have hne : j ≠ s.ptr := by
      rintro rfl
      exact hj 0 (Nat.zero_lt_succ _) (by omega)
    have hkept := hothers j fun k hk => by
      have := hj (k + 1) (Nat.succ_lt_succ hk)
      omega
    exact hkept.trans (reg_setReg_other s s.ptr j b hne)

/-- The data bytes of a write (R96, R137), by induction on their list. -/
theorem exists_execAll_rx_stored (bs : List Byte) {s : State} (h : s.bst = .ix)
    (hr : s.rej = false) :
    ∃ t : State, execAll (bs.map .rx) s = .next t ∧ Stored bs s t ∧
      t = { s with status := t.status, control := t.control, ptr := t.ptr, obs := t.obs } := by
  induction bs generalizing s with
  | nil => exact ⟨s, rfl, .nil s, rfl⟩
  | cons b bs ih =>
    obtain ⟨t, hrun, hstored, hframe⟩ := ih (s := s.storeByte b)
      ((setReg_bst s s.ptr b).trans h) ((setReg_rej s s.ptr b).trans hr)
    refine ⟨t, (execAll_cons_of_next _ (exec_rx_data b h hr)).trans hrun, hstored.cons, ?_⟩
    rw [storeByte_frame] at hframe
    exact hframe

/-- The data bytes of a write after a rejected index are discarded (R96, R137). -/
theorem exists_execAll_rx_discarded (bs : List Byte) {s : State} (h : s.bst = .ix)
    (hr : s.rej = true) :
    ∃ t : State, execAll (bs.map .rx) s = .next t ∧ t = { s with obs := t.obs } := by
  induction bs generalizing s with
  | nil => exact ⟨s, rfl, rfl⟩
  | cons b bs ih =>
    obtain ⟨t, hrun, hframe⟩ := ih (s := s.observe { ack := true }) h hr
    exact ⟨t, (execAll_cons_of_next _ (exec_rx_discarded b h hr)).trans hrun, hframe⟩

/-- A write transaction is the index byte in `AW`, the data bytes, and STOP (R96). -/
theorem execAll_pseudoWrite {v : Byte} {bs : List Byte} {s u t : State}
    (hindex : exec (.rx v) { s with bst := .aw, obs := { ack := true } } = .next u)
    (hdata : execAll (bs.map .rx) u = .next t) :
    execAll (pseudoWrite Config.busAddr v bs) s =
      .next { t with bst := .idle, rej := false, obs := {} } :=
  calc execAll (pseudoWrite Config.busAddr v bs) s
    _ = _ := execAll_cons_of_next (.rx v :: (bs.map Instr.rx ++ [Instr.stop]))
      (exec_start_own_write s)
    _ = _ := execAll_cons_of_next (bs.map Instr.rx ++ [Instr.stop]) hindex
    _ = _ := execAll_append_of_next [.stop] hdata

/-- Settles O17: the index byte in range or not, then the data bytes. -/
theorem writeTransactionStoresAlternately : Obligations.WriteTransactionStoresAlternately := by
  intro v bs s
  obtain hv | hv := Nat.lt_or_ge v.toNat 2
  · obtain ⟨t, hrun, ⟨hptr, hlast, hothers⟩, hframe⟩ := exists_execAll_rx_stored bs
      (s := { s with ptr := indexBit v, rej := false, bst := .ix, obs := { ack := true } }) rfl rfl
    simp only [indexBit_toNat v hv] at hptr hlast hothers
    refine ⟨_, execAll_pseudoWrite (exec_rx_index_in rfl hv) hrun,
      fun _ => ⟨hptr, hlast, hothers⟩, fun hle => absurd hv (Nat.not_lt.2 hle), ?_⟩
    rw [hframe]
  · obtain ⟨t, hrun, hframe⟩ := exists_execAll_rx_discarded bs
      (s := { s with
        rej := true, bst := .ix,
        obs := { ack := true, raised := some ⟨.indexOutOfRange, some v⟩ } }) rfl rfl
    refine ⟨_, execAll_pseudoWrite (exec_rx_index_out rfl hv) hrun,
      fun hlt => absurd hlt (Nat.not_lt.2 hv), fun _ => ?_, ?_⟩ <;> rw [hframe]
    exact ⟨rfl, fun _ => rfl⟩

/-- The end of a read: `n` bytes sent, NACK and STOP (R97, R98). -/
def readTail (n : Nat) : List Instr := List.replicate n .tx ++ [.nack, .stop]

/-- A read of one byte more sends it first. -/
theorem readTail_succ (n : Nat) : readTail (n + 1) = .tx :: readTail n := rfl

/-- NACK and STOP end the read. -/
theorem execAll_readTail_zero {s : State} (h : s.bst = .ar) :
    execAll (readTail 0) s = .next { s with bst := .idle, rej := false, obs := {} } :=
  calc execAll (readTail 0) s
    _ = _ := execAll_cons_of_next [.stop] (exec_nack_read h)
    _ = _ := rfl

/-- The end of a read with a selected index moves the pointer `n` further (R97, D11). -/
theorem execAll_readTail (n : Nat) {s : State} (h : s.bst = .ar) (hr : s.rej = false) :
    execAll (readTail n) s = .next
      { s with
        bst := .idle, rej := false, ptr := BitVec.ofNat 1 (s.ptr.toNat + n), obs := {} } := by
  induction n generalizing s with
  | zero =>
    rw [execAll_readTail_zero h, Nat.add_zero, BitVec.ofNat_toNat, BitVec.setWidth_eq]
  | succ n ih =>
    rw [← ofNat_nextPtr_add]
    exact (execAll_cons_of_next (readTail n) (exec_tx_read h hr)).trans
      (ih (s := s.advancePtr.observe { sent := some (s.reg s.ptr) }) h hr)

/-- The end of a read after a rejected index moves nothing of the block (R98, D8). -/
theorem execAll_readTail_rejected (n : Nat) {s : State} (h : s.bst = .ar) (hr : s.rej = true) :
    execAll (readTail n) s = .next
      { s with bst := .idle, rej := false, draws := s.draws + n, obs := {} } := by
  induction n generalizing s with
  | zero => exact execAll_readTail_zero h
  | succ n ih =>
    have hdraws : s.draws + (n + 1) = s.draws + 1 + n := by omega
    rw [hdraws]
    exact (execAll_cons_of_next (readTail n) (exec_tx_rejected h hr)).trans
      (ih (s := s.sendDrawn) h hr)

/-- What the first operation sends comes before what the others send. -/
theorem sentBytes_cons_of_next {i : Instr} {s t : State} {bytes : List (Option Byte)}
    {is : List Instr} (h : exec i s = .next t) (hrest : sentBytes is t = some bytes) :
    sentBytes (i :: is) s = some (t.obs.sent :: bytes) := by
  simp only [sentBytes, h, hrest, Option.map_some]

/-- What a read of `n` bytes sends: the registers in turn from the pointer on, and nothing at NACK and STOP (R97). -/
theorem sentBytes_readTail (n : Nat) {s : State} (h : s.bst = .ar) (hr : s.rej = false) :
    sentBytes (readTail n) s =
      some ((List.range n).map (fun k => some (s.reg (BitVec.ofNat 1 (s.ptr.toNat + k)))) ++
        [none, none]) := by
  induction n generalizing s with
  | zero => exact sentBytes_cons_of_next (exec_nack_read h) rfl
  | succ n ih =>
    have hrest := ih (s := s.advancePtr.observe { sent := some (s.reg s.ptr) }) h hr
    have hbytes := sentBytes_cons_of_next (exec_tx_read h hr) hrest
    have hkept : ∀ j : RegIndex,
        (s.advancePtr.observe { sent := some (s.reg s.ptr) }).reg j = s.reg j := fun _ => rfl
    rw [readTail_succ, hbytes, List.range_succ_eq_map]
    simp [hkept, ofNat_nextPtr_add]

/-- Settles O18: START.R, then the bytes of the read. -/
theorem readTransactionReturnsRegistersInTurn :
    Obligations.ReadTransactionReturnsRegistersInTurn := by
  intro n s hr
  have hstart := exec_start_own_read s
  refine ⟨sentBytes_cons_of_next hstart (sentBytes_readTail n rfl hr), _,
    (execAll_cons_of_next (readTail n) hstart).trans (execAll_readTail n rfl hr), ?_, ?_⟩
  · exact BitVec.toNat_ofNat ..
  · rw [hr]

/-- A combined transaction is the index byte in `AW`, START.R, and then the end of a read (R98). -/
theorem execAll_pseudoReadAt {v : Byte} {s u : State} (n : Nat)
    (hindex : exec (.rx v) { s with bst := .aw, obs := { ack := true } } = .next u) :
    execAll (pseudoReadAt Config.busAddr v n) s =
      execAll (readTail n) { u with bst := .ar, obs := { ack := true } } :=
  calc execAll (pseudoReadAt Config.busAddr v n) s
    _ = _ := execAll_cons_of_next (.rx v :: .start Config.busAddr true :: readTail n)
      (exec_start_own_write s)
    _ = _ := execAll_cons_of_next (.start Config.busAddr true :: readTail n) hindex
    _ = _ := execAll_cons_of_next (readTail n) (exec_start_own_read u)

/-- The three operations before the bytes of a combined transaction send nothing (R98). -/
theorem sentBytes_pseudoReadAt {v : Byte} {s u : State} {n : Nat} {bytes : List (Option Byte)}
    (hindex : exec (.rx v) { s with bst := .aw, obs := { ack := true } } = .next u)
    (hsent : u.obs.sent = none)
    (hread : sentBytes (readTail n) { u with bst := .ar, obs := { ack := true } } = some bytes) :
    sentBytes (pseudoReadAt Config.busAddr v n) s = some ([none, none, none] ++ bytes) := by
  have hfrom := sentBytes_cons_of_next hindex
    (sentBytes_cons_of_next (exec_start_own_read u) hread)
  rw [hsent] at hfrom
  exact sentBytes_cons_of_next (exec_start_own_write s) hfrom

/-- Settles O19: the index byte in range or not, then START.R and the bytes of the read. -/
theorem combinedTransactionReadsFromIndex : Obligations.CombinedTransactionReadsFromIndex := by
  intro v n s
  obtain hv | hv := Nat.lt_or_ge v.toNat 2
  · have hindex := exec_rx_index_in
      (s := { s with bst := .aw, obs := { ack := true } }) rfl hv
    have hbit := indexBit_toNat v hv
    refine ⟨fun _ => ?_, _, (execAll_pseudoReadAt n hindex).trans (execAll_readTail n rfl rfl),
      fun _ => ?_, fun hle => absurd hv (Nat.not_lt.2 hle), rfl⟩
    · rw [sentBytes_pseudoReadAt hindex rfl (sentBytes_readTail n rfl rfl), List.append_assoc]
      simp only [hbit]
      rfl
    · simp only [hbit]
      exact BitVec.toNat_ofNat ..
  · have hindex := exec_rx_index_out
      (s := { s with bst := .aw, obs := { ack := true } }) rfl hv
    exact ⟨fun hlt => absurd hlt (Nat.not_lt.2 hv), _,
      (execAll_pseudoReadAt n hindex).trans (execAll_readTail_rejected n rfl rfl),
      fun hlt => absurd hlt (Nat.not_lt.2 hv), fun _ => rfl, rfl⟩

end Sys2Proof.Machine

namespace Sys2Proof.Machine

/-! The two handlers beside each other (R222): a bus event neither reads nor writes the counter. -/

/-- A state with the counter and the outputs of the last step replaced, as TICK replaces them. -/
def State.withTick (s : State) (x : Byte) (o : Observation) : State :=
  { s with tick := x, obs := o }

/-- A row that the state selects does what its event does (R108, R109). -/
theorem exec_of_rowIn_eq {i : Instr} {s : State} (h : rowIn s i = i) : exec i s = exec i.event s :=
  calc exec i s
    _ = exec (selectedRow s i.event) s := by rw [show selectedRow s i.event = i from h]
    _ = exec i.event s := exec_selectedRow i.event s (event_event i)

/-- An operation that answers a next state is an event or the row its event selects (R108, R109). -/
theorem event_eq_or_rowIn_eq_of_exec {i : Instr} {s t : State} (h : exec i s = .next t) :
    i.event = i ∨ rowIn s i = i := by
  by_contra hno
  obtain ⟨hevent, hrow⟩ := not_or.1 hno
  obtain ⟨row, hstop⟩ := unselectedRowsStop i s hevent hrow
  rw [h] at hstop
  cases hstop

/-- The counter and the last outputs select no row (R108, R109). -/
theorem rowIn_withTick (i : Instr) (s : State) (x : Byte) (o : Observation) :
    rowIn (s.withTick x o) i = rowIn s i := rfl

/-- A register is written beside the counter (R62). -/
theorem setReg_withTick (s : State) (i : RegIndex) (b x : Byte) (o : Observation) :
    (s.withTick x o).setReg i b = (s.setReg i b).withTick x o := by
  rcases regIndex_cases i with rfl | rfl <;> rfl

/-- A data byte is stored beside the counter. -/
theorem storeByte_withTick (s : State) (b x : Byte) (o : Observation) :
    (s.withTick x o).storeByte b = { s.storeByte b with tick := x } :=
  congrArg (fun u => u.advancePtr.observe { ack := true }) (setReg_withTick s s.ptr b x o)

/-- RX neither reads nor writes the counter. -/
theorem exec_rx_withTick (b : Byte) {s t : State} (x : Byte) (o : Observation)
    (h : exec (.rx b) s = .next t) :
    exec (.rx b) (s.withTick x o) = .next { t with tick := x } := by
  cases hb : s.bst with
  | idle =>
    cases (exec_rx_ignored b (.inl hb)).symm.trans h
    exact exec_rx_ignored b (.inl hb)
  | ar =>
    cases (exec_rx_ignored b (.inr hb)).symm.trans h
    exact exec_rx_ignored b (.inr hb)
  | aw =>
    obtain hv | hv := Nat.lt_or_ge b.toNat 2
    · cases (exec_rx_index_in hb hv).symm.trans h
      exact exec_rx_index_in hb hv
    · cases (exec_rx_index_out hb hv).symm.trans h
      exact exec_rx_index_out hb hv
  | ix =>
    obtain hr | hr := Bool.eq_false_or_eq_true s.rej
    · cases (exec_rx_discarded b hb hr).symm.trans h
      exact exec_rx_discarded b hb hr
    · cases (exec_rx_data b hb hr).symm.trans h
      rw [exec_rx_data b (s := s.withTick x o) hb hr, storeByte_withTick]

/-- TX neither reads nor writes the counter. -/
theorem exec_tx_withTick {s t : State} (x : Byte) (o : Observation) (h : exec .tx s = .next t) :
    exec .tx (s.withTick x o) = .next { t with tick := x } := by
  by_cases hb : s.bst = .ar
  · obtain hr | hr := Bool.eq_false_or_eq_true s.rej
    · cases (exec_tx_rejected hb hr).symm.trans h
      exact exec_tx_rejected hb hr
    · cases (exec_tx_read hb hr).symm.trans h
      exact exec_tx_read hb hr
  · cases (exec_tx_foreign hb).symm.trans h
    exact exec_tx_foreign hb

/-- NACK neither reads nor writes the counter. -/
theorem exec_nack_withTick {s t : State} (x : Byte) (o : Observation)
    (h : exec .nack s = .next t) :
    exec .nack (s.withTick x o) = .next { t with tick := x } := by
  by_cases hb : s.bst = .ar
  · cases (exec_nack_read hb).symm.trans h
    exact exec_nack_read hb
  · cases (exec_nack_other hb).symm.trans h
    exact exec_nack_other hb

/-- START neither reads nor writes the counter. -/
theorem exec_start_withTick (a : DeviceAddress) (d : Bool) {s t : State} (x : Byte)
    (o : Observation) (h : exec (.start a d) s = .next t) :
    exec (.start a d) (s.withTick x o) = .next { t with tick := x } := by
  by_cases ha : a = Config.busAddr
  · subst ha
    cases d
    · cases (exec_start_own_write s).symm.trans h
      exact exec_start_own_write _
    · cases (exec_start_own_read s).symm.trans h
      exact exec_start_own_read _
  · cases (exec_start_foreign d s ha).symm.trans h
    exact exec_start_foreign d _ ha

/-- An event of the bus neither reads nor writes the counter (R222). -/
theorem exec_busEvent_withTick {i : Instr} {s t : State} (x : Byte) (o : Observation)
    (hbus : isBusEvent i = true) (hi : i.event = i) (h : exec i s = .next t) :
    exec i (s.withTick x o) = .next { t with tick := x } := by
  cases i with
  | start a d => exact exec_start_withTick a d x o h
  | rx b => exact exec_rx_withTick b x o h
  | tx => exact exec_tx_withTick x o h
  | nack => exact exec_nack_withTick x o h
  | stop => cases h; rfl
  | tick | loop | vent | reset | pattern | outmask => cases hbus
  | _ => cases hi

/-- A bus event or a row of one neither reads nor writes the counter (R222). -/
theorem exec_bus_withTick {i : Instr} {s t : State} (x : Byte) (o : Observation)
    (hbus : isBusEvent i = true) (h : exec i s = .next t) :
    exec i (s.withTick x o) = .next { t with tick := x } := by
  obtain hi | hrow := event_eq_or_rowIn_eq_of_exec h
  · exact exec_busEvent_withTick x o hbus hi h
  · have hbusEvent : isBusEvent i.event = true := by rwa [isBusEvent, event_event]
    rw [exec_of_rowIn_eq hrow] at h
    rw [exec_of_rowIn_eq ((rowIn_withTick i s x o).trans hrow)]
    exact exec_busEvent_withTick x o hbusEvent (event_event i) h

/-- A bus event is neither TICK nor a restart (R218). -/
theorem ne_tick_and_isReset_of_isBusEvent {i : Instr} (h : isBusEvent i = true) :
    i ≠ .tick ∧ isReset i = false := by
  cases i with
  | tick | reset => cases h
  | _ => exact ⟨nofun, rfl⟩

/-- A bus event keeps the counter (R120). -/
theorem tick_of_exec_bus {i : Instr} {s t : State} (hbus : isBusEvent i = true)
    (h : exec i s = .next t) : t.tick = s.tick := by
  obtain ⟨htick, hreset⟩ :=
    ne_tick_and_isReset_of_isBusEvent ((isBusEvent_rowIn s i).trans hbus)
  exact (exec_effect i s t h).tick_kept htick hreset

/-- Settles O48: TICK first is the bus event on the state TICK leaves. -/
theorem tickAndBusHandlersCommute : Obligations.TickAndBusHandlersCommute := by
  intro i s t hbus h
  have hafter : exec i (s.withTick (nextTick s.tick) {}) = .next { t with tick := nextTick s.tick } :=
    exec_bus_withTick _ _ hbus h
  refine ⟨_, _, (execAll_cons_of_next [i] (exec_tick s)).trans (execAll_cons_of_next [] hafter),
    (execAll_cons_of_next [.tick] h).trans (execAll_cons_of_next [] (exec_tick t)), rfl, ?_⟩
  rw [tick_of_exec_bus hbus h]

/-! Interleavings of the bus, the tick and the sequencer (R261, R264, R265). -/

/-- A data byte with the pointer at STATUS is stored there, and the pointer moves to CONTROL (R137, D13). -/
theorem storeByte_status {s : State} (b : Byte) (hp : s.ptr = 0#1) :
    s.storeByte b = { s with status := b, ptr := 1#1, obs := { ack := true } } := by
  have hstore : s.setReg s.ptr b = { s with status := b } := if_pos hp
  have hnext : nextPtr s.ptr = 1#1 := by rw [hp]; rfl
  rw [State.storeByte, hstore, State.advancePtr, hnext]
  rfl

/-- A data byte in `IX` with the pointer at STATUS (R137). -/
theorem exec_rx_status_data {s : State} (b : Byte) (h : s.bst = .ix) (hr : s.rej = false)
    (hp : s.ptr = 0#1) :
    exec (.rx b) s = .next { s with status := b, ptr := 1#1, obs := { ack := true } } := by
  rw [exec_rx_data b h hr, storeByte_status b hp]

/-- Settles O49: L.STRD keeps the old byte in `stmp`, and L.STWR writes it back with the new HDIS. -/
theorem statusWriteBetweenReadAndWriteIsLost :
    Obligations.StatusWriteBetweenReadAndWriteIsLost := by
  intro b s h hb hr hp
  obtain ⟨hhdis, hkept, -⟩ := statusUpdate_bits s.en s.status
  refine ⟨_, _, (execAll_cons_of_next [.rx b] (exec_loop_strd h)).trans
    (execAll_cons_of_next [] (exec_rx_status_data b hb hr hp)), rfl, exec_loop_stwr rfl, hkept, ?_⟩
  rw [hhdis]
  exact iff_of_eq (Bool.not_eq_true' s.en)

/-- Settles O50: the first write leaves no trace in the state after the second. -/
theorem secondWriteCoalescesWithFirst : Obligations.SecondWriteCoalescesWithFirst := by
  intro b b' s _
  rw [List.append_assoc, execAll_append_of_next _ (execAll_pseudoWrite_control b s),
    execAll_append_of_next _ (execAll_pseudoWrite_control b' _),
    execAll_append_of_next _ (execAll_pseudoWrite_control b' s)]

/-- Settles O51: L.DRIVE takes the phase that L.PHASE sampled before the TICK. -/
theorem outputLagsTheTick : Obligations.OutputLagsTheTick := by
  intro s hs h
  obtain ⟨m, hm⟩ := exists_outmask?_eq_some s.auxA s.auxB s.en hs.level_lt hs.tick_lt
  have hsampled := (outmask?_sampledPhase s.level.toNat s.tick s.auxA s.auxB s.en).trans hm
  exact ⟨_, _,
    (execAll_cons_of_next [.tick, .loop] (exec_loop_phase h)).trans
      ((execAll_cons_of_next [.loop] (exec_tick _)).trans
        (execAll_cons_of_next [] (exec_loop_drive rfl hsampled))),
    (execAll_cons_of_next [.loop] (exec_loop_phase h)).trans
      (execAll_cons_of_next [] (exec_loop_drive rfl hsampled)),
    rfl, nextTick_toNat s.tick, hm⟩

/-! What TICK and RESET leave (R124, R252). -/

/-- Settles O3: the counter is `nextTick` of some byte. -/
theorem tickLeavesCounterInRange : Obligations.TickLeavesCounterInRange := by
  intro s t h
  cases (exec_tick s).symm.trans h
  exact nextTick_lt_period s.tick

/-- Settles O39: the elements are those `restart_eq` lists; STATUS tells the cause. -/
theorem resetLeavesEveryElementAtItsValue : Obligations.ResetLeavesEveryElementAtItsValue := by
  refine fun c s => ⟨_, exec_reset c s, ?_, restart_eq s c⟩
  rw [restart_status, restartStatus]
  exact if_congr Bool.or_eq_true_iff rfl rfl

/-- The reset state is what a restart for no cause makes of it (R250, R252). -/
theorem restart_reset : State.reset.restart false = State.reset := rfl

/-- Settles O42: the reset state is a restarted one. -/
theorem resetStateMeetsTheInvariant : Obligations.ResetStateMeetsTheInvariant :=
  restart_reset.subst (motive := State.Inv) (restart_inv State.reset false)

end Sys2Proof.Machine
